-- ==== Sys2Proof/Word.lean ====
section
/-! DEFINITION. The word types of the block (spec/00_scope.md R8, R13, R14): every quantity is an unsigned
number of a fixed width, held as a bit vector of that width. -/

namespace Sys2Proof

/-- A byte is a u8 (R14). -/
abbrev Byte := BitVec 8

/-- A u16: the frame `length` and `sequence` fields, `ILEN`, `OLEN` (R8, R22 to R25). -/
abbrev Half := BitVec 16

/-- A u32: the frame `crc32` field, the two counters, `ARG` (R8, R26, R28, R37). -/
abbrev Word := BitVec 32

/-- A command word: `W[39:32]` is the opcode, `W[31:0]` the argument (spec/30_encoding.md R70). -/
abbrev CmdWord := BitVec 40

end Sys2Proof
end

