-- ==== Sys2Proof/Syntax.lean ====
section
/-! DEFINITION. The commands of the block (its instructions), one constructor per row of
spec/opcode_table.json (spec/30_encoding.md R71 to R73), and the assembler's line (R75). -/

namespace Sys2Proof

/-- The nineteen commands of R73. An operand has exactly the width of its field (R71, R72), so an operand
that does not fit cannot be written; the assembler line `AsmLine` is where it can (R75). -/
inductive Instr where
  /-- 0x00, format N: `ERR <- OK` (R250). -/
  | nop
  /-- 0x01, format C: `CFG <- cfg` (R251). -/
  | wrCfg (cfg : BitVec 3)
  /-- 0x02, format N: `BOOT_ANOMALY <- 0` (R252). -/
  | clrSticky
  /-- 0x08, format N: `RCRC <- crc32(IBUF[0..ILEN))` (R101). -/
  | crc32
  /-- 0x10, format S: the frame header of the payload in IBUF (R111). -/
  | encHdr (seq : Half)
  /-- 0x11, format N: takes a frame header apart (R113). -/
  | decHdr
  /-- 0x12, format S: builds a whole frame (R115). -/
  | frmEnc (seq : Half)
  /-- 0x13, format N: validates a whole frame (R117). -/
  | frmDec
  /-- 0x20, format S: starts the transmit handshake (R131). -/
  | txStart (seq : Half)
  /-- 0x21, format N: starts the receive parser (R151). -/
  | rxStart
  /-- 0x28, format B: link event, a byte arrived (R152). -/
  | linkByte (byte : Byte)
  /-- 0x29, format N: link event, the read timeout expired (R152). -/
  | linkTimeout
  /-- 0x2A, format N: ends the link activity (R166). -/
  | linkAbort
  /-- 0x40, format N: `OBUF[0..32) <- sha256(IBUF[0..ILEN))` (R187). -/
  | sha256
  /-- 0x50, format P: builds an authenticated packet (R201). -/
  | pktCreate (dst src flags seq : Byte)
  /-- 0x51, format N: verifies and takes apart a packet (R211). -/
  | pktParse
  /-- 0x60, format N: `MSG_ID <- MSG_ID + 1`, persisted (R231). -/
  | advMsgid
  /-- 0x61, format W: adopts an observed boot count (R233). -/
  | syncBoot (value : Word)
  /-- 0x62, format N: reloads both counters from NV (R236). -/
  | nvLoad
deriving DecidableEq, Repr

/-- One line of the assembler, after its text has been read (R75): the mnemonic and the operands as the
numbers written, which need not fit their fields. -/
structure AsmLine where
  /-- The mnemonic of R73, in capitals. -/
  mnemonic : String
  /-- The operands, in the order of R75, as unbounded naturals (R13). -/
  operands : List Nat
deriving DecidableEq, Repr

end Sys2Proof
end

