-- ==== Sys2Proof/WellFormed.lean ====
section
/-! DEFINITION. When an assembler line is well formed (spec/30_encoding.md R71, R75): a known mnemonic, the
number of operands its format takes, and every operand within its field ("An operand that does not fit its
field is an assembly error, never truncated"). -/

namespace Sys2Proof

/-- The six formats of R71. -/
inductive Format where
  /-- No operand. -/
  | N
  /-- `cfg`, 3 bits. -/
  | C
  /-- `byte`, 8 bits. -/
  | B
  /-- `seq`, 16 bits. -/
  | S
  /-- `value`, 32 bits. -/
  | W
  /-- `dst, src, flags, seq`, 8 bits each. -/
  | P
deriving DecidableEq, Repr

/-- The widths of a format's operands, in the order an assembler line gives them (R71, R75). -/
def Format.widths : Format → List Nat
  | .N => []
  | .C => [3]
  | .B => [8]
  | .S => [16]
  | .W => [32]
  | .P => [8, 8, 8, 8]

/-- Each command's mnemonic (R73). -/
def Instr.mnemonic : Instr → String
  | .nop => "NOP"
  | .wrCfg _ => "WR_CFG"
  | .clrSticky => "CLR_STICKY"
  | .crc32 => "CRC32"
  | .encHdr _ => "ENC_HDR"
  | .decHdr => "DEC_HDR"
  | .frmEnc _ => "FRM_ENC"
  | .frmDec => "FRM_DEC"
  | .txStart _ => "TX_START"
  | .rxStart => "RX_START"
  | .linkByte _ => "LINK_BYTE"
  | .linkTimeout => "LINK_TIMEOUT"
  | .linkAbort => "LINK_ABORT"
  | .sha256 => "SHA256"
  | .pktCreate _ _ _ _ => "PKT_CREATE"
  | .pktParse => "PKT_PARSE"
  | .advMsgid => "ADV_MSGID"
  | .syncBoot _ => "SYNC_BOOT"
  | .nvLoad => "NV_LOAD"

/-- The format of each mnemonic (R73). -/
def formatOf (m : String) : Option Format :=
  if m = "NOP" then some .N
  else if m = "WR_CFG" then some .C
  else if m = "CLR_STICKY" then some .N
  else if m = "CRC32" then some .N
  else if m = "ENC_HDR" then some .S
  else if m = "DEC_HDR" then some .N
  else if m = "FRM_ENC" then some .S
  else if m = "FRM_DEC" then some .N
  else if m = "TX_START" then some .S
  else if m = "RX_START" then some .N
  else if m = "LINK_BYTE" then some .B
  else if m = "LINK_TIMEOUT" then some .N
  else if m = "LINK_ABORT" then some .N
  else if m = "SHA256" then some .N
  else if m = "PKT_CREATE" then some .P
  else if m = "PKT_PARSE" then some .N
  else if m = "ADV_MSGID" then some .N
  else if m = "SYNC_BOOT" then some .W
  else if m = "NV_LOAD" then some .N
  else none

/-- The assembler line of a command (R75). -/
def Instr.toAsm (i : Instr) : AsmLine :=
  { mnemonic := i.mnemonic,
    operands := match i with
      | .wrCfg c => [c.toNat]
      | .encHdr q | .frmEnc q | .txStart q => [q.toNat]
      | .linkByte b => [b.toNat]
      | .pktCreate d s f q => [d.toNat, s.toNat, f.toNat, q.toNat]
      | .syncBoot v => [v.toNat]
      | .nop | .clrSticky | .crc32 | .decHdr | .frmDec | .rxStart | .linkTimeout | .linkAbort
      | .sha256 | .pktParse | .advMsgid | .nvLoad => [] }

/-- Every operand lies within its field (R75). -/
def operandsFit : List Nat → List Nat → Bool
  | [], [] => true
  | n :: ns, w :: ws => decide (n < 2 ^ w) && operandsFit ns ws
  | _, _ => false

/-- An assembler line is well formed: its mnemonic is one of the nineteen, it has as many operands as the
mnemonic's format takes, and each fits its field (R71, R75). -/
def AsmLine.wellFormed (l : AsmLine) : Bool :=
  match formatOf l.mnemonic with
  | none => false
  | some f => operandsFit l.operands f.widths

/-- A command is well formed when its assembler line is. Operands are typed by the width of their field, so
every command is. -/
def Instr.wellFormed (i : Instr) : Bool := i.toAsm.wellFormed

end Sys2Proof
end

