-- ==== Sys2Proof/Decode.lean ====
section
/-! DEFINITION. Decoding a command word (spec/30_encoding.md R70 to R74), total on every word and rejecting by
name, and after it the encoder, written from the same tables. -/

namespace Sys2Proof

/-- Why a word is no command (R74, spec/60_exceptions.md R261). Each is an illegal encoding. -/
inductive DecodeError where
  /-- The opcode is not one of the nineteen of R73. -/
  | unknownOpcode (op : Byte)
  /-- A reserved bit of `ARG` is 1 (R71). -/
  | reservedBits (op : Byte) (arg : Word)
  /-- Register level: `OP` was written with a non-zero bit in [31:8] (R74). -/
  | opHighBits (op : Word)
deriving DecidableEq, Repr

/-- Format N: `ARG[31:0] = 0` (R71). -/
def formatN (op : Byte) (arg : Word) (i : Instr) : Except DecodeError Instr :=
  if arg = 0 then .ok i else .error (.reservedBits op arg)

/-- Format C: `cfg = ARG[2:0]`, `ARG[31:3] = 0` (R71). -/
def formatC (op : Byte) (arg : Word) (i : BitVec 3 → Instr) : Except DecodeError Instr :=
  if arg.extractLsb' 3 29 = 0 then .ok (i (arg.extractLsb' 0 3)) else .error (.reservedBits op arg)

/-- Format B: `byte = ARG[7:0]`, `ARG[31:8] = 0` (R71). -/
def formatB (op : Byte) (arg : Word) (i : Byte → Instr) : Except DecodeError Instr :=
  if arg.extractLsb' 8 24 = 0 then .ok (i (arg.extractLsb' 0 8)) else .error (.reservedBits op arg)

/-- Format S: `seq = ARG[15:0]`, `ARG[31:16] = 0` (R71). -/
def formatS (op : Byte) (arg : Word) (i : Half → Instr) : Except DecodeError Instr :=
  if arg.extractLsb' 16 16 = 0 then .ok (i (arg.extractLsb' 0 16)) else .error (.reservedBits op arg)

/-- Format W: `value = ARG[31:0]` (R71). -/
def formatW (arg : Word) (i : Word → Instr) : Except DecodeError Instr := .ok (i arg)

/-- Format P: `dst = ARG[31:24]`, `src = ARG[23:16]`, `flags = ARG[15:8]`, `seq = ARG[7:0]` (R71). -/
def formatP (arg : Word) (i : Byte → Byte → Byte → Byte → Instr) : Except DecodeError Instr :=
  .ok (i (arg.extractLsb' 24 8) (arg.extractLsb' 16 8) (arg.extractLsb' 8 8) (arg.extractLsb' 0 8))

/-- The opcode map of R73: what an opcode and an argument say. -/
def decodeFields (op : Byte) (arg : Word) : Except DecodeError Instr :=
  match op with
  | 0x00#8 => formatN op arg .nop
  | 0x01#8 => formatC op arg .wrCfg
  | 0x02#8 => formatN op arg .clrSticky
  | 0x08#8 => formatN op arg .crc32
  | 0x10#8 => formatS op arg .encHdr
  | 0x11#8 => formatN op arg .decHdr
  | 0x12#8 => formatS op arg .frmEnc
  | 0x13#8 => formatN op arg .frmDec
  | 0x20#8 => formatS op arg .txStart
  | 0x21#8 => formatN op arg .rxStart
  | 0x28#8 => formatB op arg .linkByte
  | 0x29#8 => formatN op arg .linkTimeout
  | 0x2A#8 => formatN op arg .linkAbort
  | 0x40#8 => formatN op arg .sha256
  | 0x50#8 => formatP arg .pktCreate
  | 0x51#8 => formatN op arg .pktParse
  | 0x60#8 => formatN op arg .advMsgid
  | 0x61#8 => formatW arg .syncBoot
  | 0x62#8 => formatN op arg .nvLoad
  | _ => .error (.unknownOpcode op)

/-- `W[39:32]`, the opcode of a command word (R70). -/
def opcodeOf (w : CmdWord) : Byte := w.extractLsb' 32 8

/-- `W[31:0]`, the argument of a command word (R70). -/
def argOf (w : CmdWord) : Word := w.extractLsb' 0 32

/-- The command a 40-bit word stands for, or why it stands for none (R70, R73, R74). -/
def decode (w : CmdWord) : Except DecodeError Instr := decodeFields (opcodeOf w) (argOf w)

/-- The command that writing the register `OP` issues, with `ARG` as it stands: bits [31:8] of the value
written must be 0 (R74, spec/20_memory.md R66). -/
def decodePort (op arg : Word) : Except DecodeError Instr :=
  if op.extractLsb' 8 24 = 0 then decodeFields (op.extractLsb' 0 8) arg else .error (.opHighBits op)

/-- The command of a table row's bits. A command is one 40-bit word (R70), so the table's numbering is the
word's own: bit 0 of `w` is bit 0 of `ARG`, bit 39 the top bit of `OP`, and a number with a bit above 39 is no
command word. -/
def decodeTableWord (_nbits w : Nat) : Option Instr :=
  if w < 2 ^ 40 then
    match decode (BitVec.ofNat 40 w) with
    | .ok i => some i
    | .error _ => none
  else none

/-! ### The encoder -/

/-- The opcode of a command (R73). -/
def Instr.opcode : Instr → Byte
  | .nop => 0x00
  | .wrCfg _ => 0x01
  | .clrSticky => 0x02
  | .crc32 => 0x08
  | .encHdr _ => 0x10
  | .decHdr => 0x11
  | .frmEnc _ => 0x12
  | .frmDec => 0x13
  | .txStart _ => 0x20
  | .rxStart => 0x21
  | .linkByte _ => 0x28
  | .linkTimeout => 0x29
  | .linkAbort => 0x2A
  | .sha256 => 0x40
  | .pktCreate _ _ _ _ => 0x50
  | .pktParse => 0x51
  | .advMsgid => 0x60
  | .syncBoot _ => 0x61
  | .nvLoad => 0x62

/-- The argument of a command: its operands in their fields, every reserved bit 0 (R71). -/
def Instr.arg : Instr → Word
  | .wrCfg c => c.setWidth 32
  | .encHdr q | .frmEnc q | .txStart q => q.setWidth 32
  | .linkByte b => b.setWidth 32
  | .pktCreate d s f q => d ++ s ++ f ++ q
  | .syncBoot v => v
  | .nop | .clrSticky | .crc32 | .decHdr | .frmDec | .rxStart | .linkTimeout | .linkAbort
  | .sha256 | .pktParse | .advMsgid | .nvLoad => 0

/-- The command word of a command: `OP` above `ARG` (R70). -/
def encode (i : Instr) : CmdWord := i.opcode ++ i.arg

/-! ### The opcode table as data -/

/-- A row of the opcode table: "a word `W` selects the row iff `W & mask = match`" (R73). -/
structure TableRow where
  /-- The row's mnemonic. -/
  mnemonic : String
  /-- The row's format (R71). -/
  format : Format
  /-- The bits that are fixed or reserved. -/
  mask : CmdWord
  /-- The value of those bits: the table's `match`. -/
  pattern : CmdWord
deriving DecidableEq, Repr

/-- The word selects the row (R73). -/
def TableRow.selects (r : TableRow) (w : CmdWord) : Bool := w &&& r.mask == r.pattern

/-- The nineteen rows of R73 and spec/opcode_table.json. -/
def opcodeTable : List TableRow :=
  [ ⟨"NOP", .N, 0xFFFFFFFFFF, 0x0000000000⟩, ⟨"WR_CFG", .C, 0xFFFFFFFFF8, 0x0100000000⟩,
    ⟨"CLR_STICKY", .N, 0xFFFFFFFFFF, 0x0200000000⟩, ⟨"CRC32", .N, 0xFFFFFFFFFF, 0x0800000000⟩,
    ⟨"ENC_HDR", .S, 0xFFFFFF0000, 0x1000000000⟩, ⟨"DEC_HDR", .N, 0xFFFFFFFFFF, 0x1100000000⟩,
    ⟨"FRM_ENC", .S, 0xFFFFFF0000, 0x1200000000⟩, ⟨"FRM_DEC", .N, 0xFFFFFFFFFF, 0x1300000000⟩,
    ⟨"TX_START", .S, 0xFFFFFF0000, 0x2000000000⟩, ⟨"RX_START", .N, 0xFFFFFFFFFF, 0x2100000000⟩,
    ⟨"LINK_BYTE", .B, 0xFFFFFFFF00, 0x2800000000⟩, ⟨"LINK_TIMEOUT", .N, 0xFFFFFFFFFF, 0x2900000000⟩,
    ⟨"LINK_ABORT", .N, 0xFFFFFFFFFF, 0x2A00000000⟩, ⟨"SHA256", .N, 0xFFFFFFFFFF, 0x4000000000⟩,
    ⟨"PKT_CREATE", .P, 0xFF00000000, 0x5000000000⟩, ⟨"PKT_PARSE", .N, 0xFFFFFFFFFF, 0x5100000000⟩,
    ⟨"ADV_MSGID", .N, 0xFFFFFFFFFF, 0x6000000000⟩, ⟨"SYNC_BOOT", .W, 0xFF00000000, 0x6100000000⟩,
    ⟨"NV_LOAD", .N, 0xFFFFFFFFFF, 0x6200000000⟩ ]

end Sys2Proof
end

