-- ==== Sys2Proof/Config.lean ====
section
/-! DEFINITION. What the block takes as given (spec/00_scope.md R9, R20): the open parameters, and the free
values of what the spec leaves unspecified. Nothing here has a value that a proof could use.
The named functions crc32, sha256 and hmacSha256 of the configuration (R11) stand in Machine/Algorithms.lean
and the constants of R6, R7 and R10 in Machine/Constants.lean, under the same namespace. -/

namespace Sys2Proof.Config

/-- The open parameters of R9, constant over a run; no rule may assume a value of any of them.
They are carried by `Machine.State` as plain data so that a statement over every state is a statement over
every value of the parameters (log entry 2). -/
structure Params where
  /-- `SYNC_BYTE`, the value of the sync byte (I1: any value, 0x40 and 0x21 among them). -/
  syncByte : Byte
  /-- `KEY`, the pre-shared HMAC key, any length (I2). No command or register reads it back. -/
  key : List Byte
  /-- `NV_INIT.boot_count`: the store's boot count before the first power-up (I4). -/
  nvInitBoot : Word
  /-- `NV_INIT.msg_id`: the store's message id before the first power-up (I4). -/
  nvInitMsg : Word
deriving DecidableEq, Repr, Inhabited

/-- The two byte buffers (spec/20_memory.md R54, spaces 2 and 3). -/
inductive Space where
  | ibuf
  | obuf
deriving DecidableEq, Repr

/-- The parameters of this block: open, so a constant with no body (R9; log entry 2). -/
opaque params : Params

/-- What a byte of a buffer holds that nothing has written since the last reset: "contents unspecified
(any value)" (R290, I5). A free value: the first argument counts the resets, so that what a buffer holds after
one reset says nothing of what it holds after another (log entry 3). -/
opaque unspecifiedByte : Nat → Space → Nat → Byte

/-- What a host read answers where the spec gives the read no value: a write-only register, and an address inside a
register (R55, R66). A free value of the number of resets and the address (log entry 8). -/
opaque unstatedRead : Nat → Nat → Word

/-- Whether a host write at an address inside a register acts on that register or is ignored: the spec excludes a
fault (R55) and does not say which of the two it is (log entry 17). -/
opaque writeInsideActs : Nat → Bool

end Sys2Proof.Config
end

