-- ==== Sys2Proof/Machine/Constants.lean ====
section
/-! DEFINITION. The named constants of the block (spec/00_scope.md R6, R7, R10; I19: "collected as named
constants ... so that a correction is a one-line change"). -/

namespace Sys2Proof.Config

/-- `MAX_PACKET_SIZE`: the largest payload length in bytes (R6). -/
def maxPacketSize : Nat := 4096

/-- `HDR_LEN`: the frame header's length (R6). -/
def hdrLen : Nat := 8

/-- `START`: the start marker byte (R6, R81). -/
def startByte : Byte := 0x40

/-- `ACK`: the acknowledgement byte (R6, R81). -/
def ackByte : Byte := 0x21

/-- `SYNC_RUN`: how many consecutive sync bytes make a run (R6). -/
def syncRun : Nat := 3

/-- `START_SEARCH_LIMIT`: how many non-matching bytes end the start search (R6). -/
def startSearchLimit : Nat := 10

/-- `SYNC_RETRIES`: how many times the sync run is sent in all (R6, R136). -/
def syncRetries : Nat := 3

/-- `PKT_HDR_LEN`: the packet header's length (R7). -/
def pktHdrLen : Nat := 5

/-- `PKT_FTR_LEN`: the packet footer's length (R7). -/
def pktFtrLen : Nat := 8

/-- `HMAC_LEN`: the tag's length (R7). -/
def hmacLen : Nat := 32

/-- `PKT_MAX`: the longest packet `PKT_CREATE` builds (R7). -/
def pktMax : Nat := 255

/-- `DATA_MAX = PKT_MAX − PKT_HDR_LEN − PKT_FTR_LEN − HMAC_LEN` (R7, conflict C1). -/
def dataMax : Nat := pktMax - pktHdrLen - pktFtrLen - hmacLen

/-- `PKT_OVERHEAD`: header, footer and tag together (R7). -/
def pktOverhead : Nat := pktHdrLen + pktFtrLen + hmacLen

/-- `BUF_CAP = HDR_LEN + MAX_PACKET_SIZE`: the capacity of each of IBUF and OBUF (R10). -/
def bufCap : Nat := 4104

/-- The last value `MSG_ID` may take: it never wraps (R204). -/
def msgIdMax : Word := 0xFFFFFFFF

end Sys2Proof.Config
end

