-- ==== Sys2Proof/Machine/Bytes.lean ====
section
/-! DEFINITION. Byte strings and byte order (spec/00_scope.md R14, spec/20_memory.md R50 to R53). -/

namespace Sys2Proof.Machine

/-- `s[a..b)`: the bytes at indices `a ≤ i < b` (R14). -/
def slice (s : List Byte) (a b : Nat) : List Byte := (s.drop a).take (b - a)

/-- `rep(v, n)`: n copies of a byte (R14). -/
def rep (v : Byte) (n : Nat) : List Byte := List.replicate n v

/-- `le16(v)`: least significant byte first (R14). -/
def le16 (v : Half) : List Byte := [v.extractLsb' 0 8, v.extractLsb' 8 8]

/-- `le32(v)`: least significant byte first (R14). -/
def le32 (v : Word) : List Byte :=
  [v.extractLsb' 0 8, v.extractLsb' 8 8, v.extractLsb' 16 8, v.extractLsb' 24 8]

/-- `be32(v)`: most significant byte first (R14). -/
def be32 (v : Word) : List Byte :=
  [v.extractLsb' 24 8, v.extractLsb' 16 8, v.extractLsb' 8 8, v.extractLsb' 0 8]

/-- `be64(v)`: most significant byte first (R14). -/
def be64 (v : BitVec 64) : List Byte := be32 (v.extractLsb' 32 32) ++ be32 (v.extractLsb' 0 32)

/-- `from_le(s)`, the sum of `s[i]·256^i` (R14). -/
def fromLe : List Byte → Nat
  | [] => 0
  | b :: bs => b.toNat + 256 * fromLe bs

/-- `from_be(s)`: the same with the first byte most significant (R14). -/
def fromBe (s : List Byte) : Nat := fromLe s.reverse

end Sys2Proof.Machine
end

