-- ==== Sys2Proof/Machine/State.lean ====
section
/-! DEFINITION. The state of the block as plain data (spec/10_state.md R20 to R42), the moves its environment
makes (spec/48_common_semantics.md R320), the two kinds of stop, and the state after reset. -/

namespace Sys2Proof.Machine

/-- The contents of a buffer: (index, byte) pairs with strictly rising indices. An index that is not listed
holds no value the model knows; a command that reads it reads a free value (log entry 3). -/
abbrev Memory := List Host.Cell

/-- `STATUS.ERR` (R29, spec/60_exceptions.md R260); the reserved codes 10 to 15 are never produced (I9). -/
inductive Err where
  /-- 0: the command completed and its effects took place. -/
  | ok
  /-- 1: the command word is not a legal encoding (R261). -/
  | illegal
  /-- 2: the command needs `LSTATE = IDLE` (R266). -/
  | busy
  /-- 3: a link event with no link activity in progress (R267). -/
  | state
  /-- 4: a length exceeds its maximum. -/
  | length
  /-- 5: the input is shorter than its format requires. -/
  | short
  /-- 6: the input is longer than its format allows. -/
  | format
  /-- 7: the payload's CRC32 differs from the header's `crc32` field. -/
  | crc
  /-- 8: the recomputed HMAC differs from the received one, enforced. -/
  | auth
  /-- 9: `MSG_ID` is 0xFFFFFFFF and cannot advance. -/
  | ctr
deriving DecidableEq, Repr

/-- `LSTATE`, the link sequencer state (R33): "All eight values are used". -/
inductive LState where
  | idle
  | rxHunt
  | rxWaitStart
  | rxHeader
  | rxPayload
  | txWaitSyncAck
  | txWaitHdrAck
  | txWaitPayAck
deriving DecidableEq, Repr

/-- `LRESULT`, the outcome of the last link activity (R34); the codes 6 and 7 never occur (I9). -/
inductive LResult where
  | none
  | rxOk
  | rxNone
  | txOk
  | txFail
  | aborted
deriving DecidableEq, Repr

/-- `LCAUSE`, why the last link activity failed (R34, spec/60_exceptions.md R263); the codes 12 to 15 are never
written (I9). -/
inductive LCause where
  | none
  | noData
  | startTimeout
  | startNotFound
  | headerShort
  | oversize
  | payloadShort
  | crcMismatch
  | syncUnacked
  | headerUnacked
  | payloadUnacked
  | hostAbort
deriving DecidableEq, Repr

/-- One move of the block's environment (spec/48_common_semantics.md R320), in the one total order of
spec/20_memory.md R59. -/
inductive Move where
  /-- `cmd(W)`: a command word at the command port, whole (R320 (a), spec/20_memory.md R64). -/
  | cmd (w : CmdWord)
  /-- `LOAD(s)` by the host (R320 (b), spec/20_memory.md R57). -/
  | load (s : List Byte)
  /-- A host write of a 32-bit value at a byte address of the register map (spec/20_memory.md R66). -/
  | write (addr : Nat) (value : Word)
  /-- A host read at a byte address of the register map (R320 (d), spec/20_memory.md R66). -/
  | read (addr : Nat)
  /-- The reset input, or power-up after a loss of power (R320 (c), spec/70_reset_and_hazards.md R290). -/
  | reset
  /-- The byte channel receives a byte: it joins RXIN (spec/20_memory.md R67). -/
  | arrive (b : Byte)
  /-- The byte channel presents the oldest byte of RXIN as a link event (spec/20_memory.md R60, R67). -/
  | deliver
  /-- The byte channel's read timeout expires with no byte (spec/20_memory.md R67). -/
  | timeout
deriving DecidableEq, Repr

/-- Why the machine stops with a fault. -/
inductive Fault where
  /-- An access outside the 4104 bytes of a buffer. Raised by `withinBuffer` and `rxHeader`, in states no run reaches
  (spec/48_common_semantics.md R326: "no out-of-range access and so no access fault"; log entry 5). Safe. -/
  | outsideBuffer
deriving DecidableEq, Repr

/-- Why a step has no meaning. No command is refused: these are host actions to which the spec gives no move. -/
inductive Refusal where
  /-- An instruction whose meaning is not written yet; no arm of `exec` answers it. Safe. -/
  | notModelled (mnemonic : String)
  /-- `LOAD`, or a host write of the IBUF window or of `ILEN`, while `LSTATE ≠ IDLE`: "the model gives LOAD no
  move" (spec/20_memory.md R57, I3). Raised by `hostLoad`, `hostWrite` and `writeRegister`.
  Safe. -/
  | loadWhileActive
  /-- `LOAD(s)` with `len(s) > 4104`: enabled only up to `BUF_CAP` (R320 (b), I11). Raised by `hostLoad`. Safe. -/
  | loadTooLong
deriving DecidableEq, Repr

/-- The state of the block (R20), its streams, the parameters it runs with and the moves its environment will
make. -/
structure State where
  /-- `ILEN`, the number of valid bytes in IBUF (R22). -/
  ilen : Half
  /-- `OLEN`, the number of valid bytes in OBUF (R23). -/
  olen : Half
  /-- `RLEN`, frame `length` or packet `len` (R24). -/
  rlen : Half
  /-- `RSEQ`, frame `sequence` or packet `seq` (R25). -/
  rseq : Half
  /-- `RCRC`, a CRC32 (R26). -/
  rcrc : Word
  /-- `RDST`, packet `dst` (R27). -/
  rdst : Byte
  /-- `RSRC`, packet `src` (R27). -/
  rsrc : Byte
  /-- `RFLG`, packet `flags` (R27). -/
  rflg : Byte
  /-- `RBOOT`, footer `boot_count` (R28). -/
  rboot : Word
  /-- `RMSG`, footer `msg_id` (R28). -/
  rmsg : Word
  /-- `STATUS.ERR`, the code of the most recent command (R29). -/
  err : Err
  /-- `STATUS.AUTH_OK` (R29, R31). -/
  authOk : Bool
  /-- `STATUS.AUTH_WARN` (R29, R31). -/
  authWarn : Bool
  /-- `STATUS.FOOTER_VALID` (R29, R31). -/
  footerValid : Bool
  /-- `STATUS.BOOT_ANOMALY`, sticky (R29, R32). -/
  bootAnomaly : Bool
  /-- `CFG`: bit 0 `AUTH_EN`, bit 1 `AUTH_ENFORCE`, bit 2 `ADOPT_LOWER` (R30). -/
  cfg : BitVec 3
  /-- `LSTATE` (R33). -/
  lstate : LState
  /-- `LRESULT` (R34). -/
  lresult : LResult
  /-- `LCAUSE` (R34). -/
  lcause : LCause
  /-- `SYNC_CNT`, the length of the current run of sync bytes (R35). -/
  syncCnt : BitVec 2
  /-- `MISS_CNT`, the number of non-start bytes seen (R35). -/
  missCnt : BitVec 4
  /-- `TX_TRIES`, how often the sync run has been sent (R35). -/
  txTries : BitVec 2
  /-- `BYTE_IDX`, the number of header or payload bytes received (R35). -/
  byteIdx : BitVec 13
  /-- `LEXP`, the expected quantity of the failure (R36). -/
  lexp : Word
  /-- `LACT`, the actual quantity of the failure (R36). -/
  lact : Word
  /-- `HBUF`, the header being received or latched for transmission (R36). -/
  hbuf : Vector Byte 8
  /-- `BOOT_COUNT` (R37). -/
  bootCount : Word
  /-- `MSG_ID` (R37). -/
  msgId : Word
  /-- IBUF (R38). -/
  ibuf : Memory
  /-- OBUF (R38). -/
  obuf : Memory
  /-- `NV.boot_count` (R39). -/
  nvBoot : Word
  /-- `NV.msg_id` (R39). -/
  nvMsg : Word
  /-- `ARG`, the argument of the next command at register level (spec/20_memory.md R66; log entry 4). -/
  arg : Word
  /-- RXIN: the bytes the channel has received and the block has not consumed, oldest first
  (spec/20_memory.md R67). -/
  rxin : List Byte
  /-- TXOUT: the bytes the block has emitted, oldest first (R20, spec/20_memory.md R67). -/
  txout : List Byte
  /-- The open parameters the block runs with (spec/00_scope.md R9); no step changes them (log entry 2). -/
  params : Config.Params
  /-- The model's own: how many resets there have been (log entry 3). -/
  epoch : Nat
  /-- The model's own: the moves the environment will make, oldest first (R320; log entry 1). -/
  moves : List Move
deriving DecidableEq, Repr

/-- The machine right after its first reset (R42, spec/70_reset_and_hazards.md R290, R291): the counters from NV,
NV as `NV_INIT`, nothing known of the buffers, and no move pending. -/
def State.reset : State :=
  { ilen := 0, olen := 0, rlen := 0, rseq := 0, rcrc := 0, rdst := 0, rsrc := 0, rflg := 0,
    rboot := 0, rmsg := 0,
    err := .ok, authOk := false, authWarn := false, footerValid := false, bootAnomaly := false,
    cfg := 0b111,
    lstate := .idle, lresult := .none, lcause := .none,
    syncCnt := 0, missCnt := 0, txTries := 0, byteIdx := 0, lexp := 0, lact := 0,
    hbuf := #v[0, 0, 0, 0, 0, 0, 0, 0],
    bootCount := Config.params.nvInitBoot, msgId := Config.params.nvInitMsg,
    ibuf := [], obuf := [],
    nvBoot := Config.params.nvInitBoot, nvMsg := Config.params.nvInitMsg,
    arg := 0, rxin := [], txout := [],
    params := Config.params, epoch := 0, moves := [] }

end Sys2Proof.Machine
end

