-- ==== Sys2Proof/Machine/Memory.lean ====
section
/-! DEFINITION. The contents of a byte buffer: reading one byte, storing a byte string, and the canonical form
(spec/10_state.md R38, spec/20_memory.md R54 to R56). -/

namespace Sys2Proof.Machine

/-- The byte listed at an index; an index that is not listed holds no known value (log entry 3). -/
def Memory.read : Memory → Nat → Option Byte
  | [], _ => none
  | (k, b) :: m, i => if k = i then some b else Memory.read m i

/-- A byte string as cells at successive indices from `i`. -/
def cellsAt (i : Nat) : List Byte → Memory
  | [] => []
  | b :: bs => (i, b) :: cellsAt (i + 1) bs

/-- `m[i..i+len(bs)) <- bs` (spec/00_scope.md R15): the cells there are replaced, the others stay. -/
def Memory.store (m : Memory) (i : Nat) (bs : List Byte) : Memory :=
  m.filter (fun c => c.1 < i) ++ cellsAt i bs ++ m.filter (fun c => i + bs.length ≤ c.1)

/-- The canonical form: indices strictly rising, each within the buffer's `BUF_CAP` bytes (R38). An index that is
not listed reads as no value, so no listed cell equals what an unlisted one reads as. -/
abbrev Memory.wf (m : Memory) : Prop :=
  m.Pairwise (fun c d => c.1 < d.1) ∧ ∀ c ∈ m, c.1 < Config.bufCap

end Sys2Proof.Machine
end

