-- ==== Sys2Proof/Machine/Ops.lean ====
section
/-! DEFINITION. The named operations the meanings are written over: reading and writing the buffers, taking an
error and completing a command (the block's exception entry and its want of a return), emitting, ending a link
activity, advancing a counter with its NV word, and reset. -/

namespace Sys2Proof.Machine

/-- What a meaning answers. -/
abbrev Result := Host.Outcome State Fault Refusal

/-! ### The buffers (spec/00_scope.md R15, spec/20_memory.md R54 to R56) -/

/-- The cells of a buffer. -/
def State.cells (s : State) : Config.Space → Memory
  | .ibuf => s.ibuf
  | .obuf => s.obuf

/-- One byte of a buffer: what was written there, or, where nothing has been written since the last reset, an
unspecified byte (R38, spec/70_reset_and_hazards.md R290, I5; log entry 3). -/
def State.byteAt (s : State) (sp : Config.Space) (i : Nat) : Byte :=
  ((s.cells sp).read i).getD (Config.unspecifiedByte s.epoch sp i)

/-- `MemRead(space, addr, n)`: `n` bytes from an index (R15). -/
def State.memRead (s : State) (sp : Config.Space) (i n : Nat) : List Byte :=
  (List.range n).map fun k => s.byteAt sp (i + k)

/-- `OBUF[i..i+len(bs)) <- bs` (R15). -/
def State.writeObuf (s : State) (i : Nat) (bs : List Byte) : State :=
  { s with obuf := s.obuf.store i bs }

/-- `IBUF[i..i+len(bs)) <- bs`, by the host only (R38, spec/20_memory.md R57). -/
def State.writeIbuf (s : State) (i : Nat) (bs : List Byte) : State :=
  { s with ibuf := s.ibuf.store i bs }

/-- A buffer access that the command's own checks do not bound: the buffer's first `n` bytes must exist, else the
access is outside the buffer (R326 says that this never happens; log entry 5). -/
def withinBuffer (n : Nat) (k : Result) : Result :=
  if n ≤ Config.bufCap then k else .fault .outsideBuffer

/-! ### Taking an error, and completing (spec/60_exceptions.md R260, R270 to R272) -/

/-- TAKING AN ERROR, the block's synchronous exception, shared by every command: "the write of `STATUS.ERR` and
nothing more. No state is saved anywhere, no mode or mask changes, no stack exists, control goes nowhere" (R271).
`fail E` is this, on the state the command started from (R16, R270). -/
def takeError (e : Err) (s : State) : State := { s with err := e }

/-- COMPLETING a command: `done`, `ERR <- OK` (R16). There is no return from an error and nothing to restore:
`ERR` is not sticky, the next command overwrites it (R272), and this is how. -/
def complete (s : State) : State := { s with err := .ok }

/-- The busy check of R266: a command that needs `LSTATE = IDLE` fails with `ERR_BUSY` and changes nothing else. -/
def whenIdle (s : State) (k : Result) : Result :=
  if s.lstate = .idle then k else .next (takeError .busy s)

/-! ### The streams and the link record -/

/-- `emit(bs)`: appends to TXOUT (R15, spec/20_memory.md R67). -/
def emit (bs : List Byte) (s : State) : State := { s with txout := s.txout ++ bs }

/-- `link_end(result, cause, exp, act)` (spec/43_frame_rx_parser.md R154). -/
def linkEnd (result : LResult) (cause : LCause) (exp act : Word) (s : State) : State :=
  { s with lstate := .idle, lresult := result, lcause := cause, lexp := exp, lact := act }

/-- What both start commands clear: the result, the cause, its quantities and the counters (R34 to R36, R131,
R151). -/
def clearLink (s : State) : State :=
  { s with lresult := .none, lcause := .none, lexp := 0, lact := 0,
           syncCnt := 0, missCnt := 0, txTries := 0, byteIdx := 0 }

/-! ### The counters and NV (spec/20_memory.md R62, spec/46_antireplay.md R231, R233) -/

/-- `MSG_ID <- MSG_ID + 1; NV.msg_id <- MSG_ID`, one atomic step (R62, R201, R231). -/
def advanceMsgId (s : State) : State :=
  { s with msgId := s.msgId + 1, nvMsg := s.msgId + 1 }

/-- `BOOT_COUNT <- v; NV.boot_count <- v`, one atomic step (R62, R233). -/
def adoptBootCount (v : Word) (s : State) : State :=
  { s with bootCount := v, nvBoot := v }

/-- `BOOT_COUNT <- NV.boot_count; MSG_ID <- NV.msg_id` (R236, R290). -/
def loadCounters (s : State) : State :=
  { s with bootCount := s.nvBoot, msgId := s.nvMsg }

/-! ### Reset (spec/70_reset_and_hazards.md R290) -/

/-- The reset step: every register at its reset value, the counters from NV, the buffers' contents forgotten, NV
unchanged, nothing emitted. What is outside the block (RXIN, the moves to come, the parameters) stays, and
`ARG` is cleared (log entries 4, 9, 13). -/
def resetBlock (s : State) : State :=
  { State.reset with
    bootCount := s.nvBoot, msgId := s.nvMsg, nvBoot := s.nvBoot, nvMsg := s.nvMsg,
    rxin := s.rxin, txout := s.txout, params := s.params, epoch := s.epoch + 1, moves := s.moves }

end Sys2Proof.Machine
end

