-- ==== Sys2Proof/Machine/Flags.lean ====
section
/-! DEFINITION. The flags, the configuration bits and the packed registers `STATUS`, `CFG` and `LSTAT`
(spec/10_state.md R29 to R35, spec/60_exceptions.md R260, R263). -/

namespace Sys2Proof.Machine

/-! ### CFG (R30) -/

/-- `CFG.AUTH_EN`, bit 0. -/
def State.authEn (s : State) : Bool := s.cfg.getLsbD 0

/-- `CFG.AUTH_ENFORCE`, bit 1. -/
def State.authEnforce (s : State) : Bool := s.cfg.getLsbD 1

/-- `CFG.ADOPT_LOWER`, bit 2. -/
def State.adoptLower (s : State) : Bool := s.cfg.getLsbD 2

/-! ### The flags of PKT_PARSE and SYNC_BOOT (R31, R32) -/

/-- The clearing that begins every `PKT_PARSE` and survives its failure (R31, R212). -/
def clearParseFlags (s : State) : State :=
  { s with authOk := false, authWarn := false, footerValid := false }

/-- The flags of a `PKT_PARSE` that succeeds: set only with `AUTH_EN = 1`, by whether the tags were equal (R31,
R211). -/
def setParseFlags (authEn ok : Bool) (s : State) : State :=
  { s with authOk := authEn && ok, authWarn := authEn && !ok, footerValid := authEn && ok }

/-- `BOOT_ANOMALY <- 1` (R32, R233). -/
def flagAnomaly (s : State) : State := { s with bootAnomaly := true }

/-- `STATUS.LINK_ACTIVE`, not stored: 1 exactly when `LSTATE ≠ IDLE` (R29). -/
def linkActive (s : State) : Bool := s.lstate != .idle

/-! ### The codes (R33, R34, R260, R263) -/

/-- The 4-bit code of `STATUS.ERR` (R260). -/
def Err.code : Err → BitVec 4
  | .ok => 0
  | .illegal => 1
  | .busy => 2
  | .state => 3
  | .length => 4
  | .short => 5
  | .format => 6
  | .crc => 7
  | .auth => 8
  | .ctr => 9

/-- The 3-bit code of `LSTATE` (R33). -/
def LState.code : LState → BitVec 3
  | .idle => 0
  | .rxHunt => 1
  | .rxWaitStart => 2
  | .rxHeader => 3
  | .rxPayload => 4
  | .txWaitSyncAck => 5
  | .txWaitHdrAck => 6
  | .txWaitPayAck => 7

/-- The 3-bit code of `LRESULT` (R34). -/
def LResult.code : LResult → BitVec 3
  | .none => 0
  | .rxOk => 1
  | .rxNone => 2
  | .txOk => 3
  | .txFail => 4
  | .aborted => 5

/-- The 4-bit code of `LCAUSE` (R263). -/
def LCause.code : LCause → BitVec 4
  | .none => 0
  | .noData => 1
  | .startTimeout => 2
  | .startNotFound => 3
  | .headerShort => 4
  | .oversize => 5
  | .payloadShort => 6
  | .crcMismatch => 7
  | .syncUnacked => 8
  | .headerUnacked => 9
  | .payloadUnacked => 10
  | .hostAbort => 11

/-! ### The packed registers (R29, R30, R33 to R35) -/

/-- A flag as one bit. -/
def bit (b : Bool) : BitVec 1 := BitVec.ofBool b

/-- `STATUS`: `ERR` [3:0], `AUTH_OK` 4, `AUTH_WARN` 5, `FOOTER_VALID` 6, `BOOT_ANOMALY` 7, `LINK_ACTIVE` 8,
[31:9] read 0 (R29). -/
def statusWord (s : State) : Word :=
  (0 : BitVec 23) ++ bit (linkActive s) ++ bit s.bootAnomaly ++ bit s.footerValid ++ bit s.authWarn
    ++ bit s.authOk ++ s.err.code

/-- `CFG` as read: [31:3] read 0 (R30). -/
def cfgWord (s : State) : Word := s.cfg.setWidth 32

/-- `LSTAT`: `LSTATE` [2:0], `LRESULT` [5:3], `LCAUSE` [9:6], `SYNC_CNT` [11:10], `MISS_CNT` [15:12],
`TX_TRIES` [17:16], `BYTE_IDX` [30:18], bit 31 reads 0 (R33 to R35). -/
def lstatWord (s : State) : Word :=
  (0 : BitVec 1) ++ s.byteIdx ++ s.txTries ++ s.missCnt ++ s.syncCnt ++ s.lcause.code ++ s.lresult.code
    ++ s.lstate.code

end Sys2Proof.Machine
end

