-- ==== Sys2Proof/Machine/AntiReplay.lean ====
section
/-! DEFINITION. The anti-replay state store: ADV_MSGID, SYNC_BOOT, NV_LOAD (spec/46_antireplay.md R230 to R239). -/

namespace Sys2Proof.Machine

/-- The pseudocode of `ADV_MSGID` (R231): refused rather than wrapped (R204). -/
def advMsgid (s : State) : State :=
  if s.msgId = Config.msgIdMax then takeError .ctr s
  else
    let t := advanceMsgId s
    complete { t with rmsg := t.msgId }

/-- `ADV_MSGID`: increment, persist, return the new value (R231). -/
def execAdvMsgid (s : State) : Result := whenIdle s (.next (advMsgid s))

/-- The pseudocode of `SYNC_BOOT` (R233): an unsigned comparison; a lower value is flagged under either policy
(R234); `MSG_ID` is not touched (R235). -/
def syncBoot (observed : Word) (s : State) : State :=
  if observed.toNat > s.bootCount.toNat then complete (adoptBootCount observed s)
  else if observed.toNat < s.bootCount.toNat then
    complete (if s.adoptLower then adoptBootCount observed (flagAnomaly s) else flagAnomaly s)
  else complete s

/-- `SYNC_BOOT value`: adopt an observed boot count (R233). -/
def execSyncBoot (observed : Word) (s : State) : Result := whenIdle s (.next (syncBoot observed s))

/-- `NV_LOAD`: reload both counters from NV (R236). -/
def execNvLoad (s : State) : Result := whenIdle s (.next (complete (loadCounters s)))

end Sys2Proof.Machine
end

