-- ==== Sys2Proof/Machine/Algorithms.lean ====
section
/-! DEFINITION. The named functions of the configuration (spec/00_scope.md R11): `crc32` (spec/40_crc32.md R100),
`sha256` and `hmacSha256` (spec/44_sha256_hmac.md R180 to R185), and the comparison of tags (R186). The rules of
the commands call them by name, so another variant is a change of this file alone (log entry 6). -/

namespace Sys2Proof.Config

open Sys2Proof.Machine

/-! ### CRC-32/ISO-HDLC (R100) -/

/-- One of the eight inner steps: shift right, and exclusive-or the polynomial when bit 0 was 1 (R100). -/
def crcBit (c : Word) : Word := if c.getLsbD 0 then (c >>> 1) ^^^ 0xEDB88320 else c >>> 1

/-- One byte folded into the inner state: exclusive-or, then eight inner steps (R100). -/
def crcByte (c : Word) (b : Byte) : Word :=
  crcBit (crcBit (crcBit (crcBit (crcBit (crcBit (crcBit (crcBit (c ^^^ b.setWidth 32))))))))

/-- The inner state after a byte string, from a given inner state (R100). -/
def crcFold (c : Word) (s : List Byte) : Word := s.foldl crcByte c

/-- `crc32 : byte string -> u32` (R100). -/
def crc32 (s : List Byte) : Word := crcFold 0xFFFFFFFF s ^^^ 0xFFFFFFFF

/-! ### SHA-256 (R180 to R184) -/

/-- The eight words of a SHA-256 state: `H[0..7]`, or the working variables `a` to `h` (R183). -/
structure ShaState where
  a : Word
  b : Word
  c : Word
  d : Word
  e : Word
  f : Word
  g : Word
  h : Word
deriving DecidableEq, Repr

/-- `H0` (R180). -/
def shaInit : ShaState :=
  ⟨0x6A09E667, 0xBB67AE85, 0x3C6EF372, 0xA54FF53A, 0x510E527F, 0x9B05688C, 0x1F83D9AB, 0x5BE0CD19⟩

/-- `K[0..63]` (R180). -/
def shaK : List Word :=
  [0x428A2F98, 0x71374491, 0xB5C0FBCF, 0xE9B5DBA5, 0x3956C25B, 0x59F111F1, 0x923F82A4, 0xAB1C5ED5] ++
  [0xD807AA98, 0x12835B01, 0x243185BE, 0x550C7DC3, 0x72BE5D74, 0x80DEB1FE, 0x9BDC06A7, 0xC19BF174] ++
  [0xE49B69C1, 0xEFBE4786, 0x0FC19DC6, 0x240CA1CC, 0x2DE92C6F, 0x4A7484AA, 0x5CB0A9DC, 0x76F988DA] ++
  [0x983E5152, 0xA831C66D, 0xB00327C8, 0xBF597FC7, 0xC6E00BF3, 0xD5A79147, 0x06CA6351, 0x14292967] ++
  [0x27B70A85, 0x2E1B2138, 0x4D2C6DFC, 0x53380D13, 0x650A7354, 0x766A0ABB, 0x81C2C92E, 0x92722C85] ++
  [0xA2BFE8A1, 0xA81A664B, 0xC24B8B70, 0xC76C51A3, 0xD192E819, 0xD6990624, 0xF40E3585, 0x106AA070] ++
  [0x19A4C116, 0x1E376C08, 0x2748774C, 0x34B0BCB5, 0x391C0CB3, 0x4ED8AA4A, 0x5B9CCA4F, 0x682E6FF3] ++
  [0x748F82EE, 0x78A5636F, 0x84C87814, 0x8CC70208, 0x90BEFFFA, 0xA4506CEB, 0xBEF9A3F7, 0xC67178F2]

/-- `z` of R181: the least number with `(L + 1 + z) mod 64 = 56`. -/
def shaZeros (len : Nat) : Nat := (119 - len % 64) % 64

/-- `pad(m)` (R181). -/
def shaPad (m : List Byte) : List Byte :=
  m ++ [0x80] ++ rep 0x00 (shaZeros m.length) ++ be64 (BitVec.ofNat 64 (8 * m.length))

/-- `Ch` (R182). -/
def shaCh (x y z : Word) : Word := (x &&& y) ^^^ (~~~x &&& z)

/-- `Maj` (R182). -/
def shaMaj (x y z : Word) : Word := (x &&& y) ^^^ (x &&& z) ^^^ (y &&& z)

/-- `BSIG0` (R182). -/
def bsig0 (x : Word) : Word := x.rotateRight 2 ^^^ x.rotateRight 13 ^^^ x.rotateRight 22

/-- `BSIG1` (R182). -/
def bsig1 (x : Word) : Word := x.rotateRight 6 ^^^ x.rotateRight 11 ^^^ x.rotateRight 25

/-- `SSIG0` (R182). -/
def ssig0 (x : Word) : Word := x.rotateRight 7 ^^^ x.rotateRight 18 ^^^ (x >>> 3)

/-- `SSIG1` (R182). -/
def ssig1 (x : Word) : Word := x.rotateRight 17 ^^^ x.rotateRight 19 ^^^ (x >>> 10)

/-- `W[0..15]`: the block as big-endian words (R183, spec/20_memory.md R52). -/
def shaBlockWords (block : List Byte) : List Word :=
  (List.range 16).map fun t => BitVec.ofNat 32 (fromBe (slice block (4 * t) (4 * t + 4)))

/-- `W[t]` from the words before it, `t` at least 16 (R183). -/
def shaExtend (w : List Word) : List Word :=
  w ++ [ssig1 (w.getD (w.length - 2) 0) + w.getD (w.length - 7) 0
        + ssig0 (w.getD (w.length - 15) 0) + w.getD (w.length - 16) 0]

/-- `W[0..63]` (R183). -/
def shaSchedule (block : List Byte) : List Word := shaExtend^[48] (shaBlockWords block)

/-- One of the 64 rounds, with `K[t]` and `W[t]` (R183). -/
def shaRound (v : ShaState) (kw : Word × Word) : ShaState :=
  let t1 := v.h + bsig1 v.e + shaCh v.e v.f v.g + kw.1 + kw.2
  let t2 := bsig0 v.a + shaMaj v.a v.b v.c
  ⟨t1 + t2, v.a, v.b, v.c, v.d + t1, v.e, v.f, v.g⟩

/-- `compress(H, B)` (R183). -/
def shaCompress (s : ShaState) (block : List Byte) : ShaState :=
  let v := (shaK.zip (shaSchedule block)).foldl shaRound s
  ⟨s.a + v.a, s.b + v.b, s.c + v.c, s.d + v.d, s.e + v.e, s.f + v.f, s.g + v.g, s.h + v.h⟩

/-- The successive 64-byte blocks of a padded message (R184). -/
def shaBlocks : Nat → List Byte → List (List Byte)
  | 0, _ => []
  | n + 1, m => m.take 64 :: shaBlocks n (m.drop 64)

/-- `sha256 : byte string -> 32-byte string` (R184). -/
def sha256 (m : List Byte) : List Byte :=
  let s := (shaBlocks ((shaPad m).length / 64) (shaPad m)).foldl shaCompress shaInit
  be32 s.a ++ be32 s.b ++ be32 s.c ++ be32 s.d ++ be32 s.e ++ be32 s.f ++ be32 s.g ++ be32 s.h

/-! ### HMAC-SHA256 (R185) and the comparison of tags (R186) -/

/-- The key as a 64-byte block: hashed first when longer than 64 bytes, then padded with zeros (R185). -/
def hmacKey (k : List Byte) : List Byte :=
  let k0 := if k.length > 64 then sha256 k else k
  k0 ++ rep 0x00 (64 - k0.length)

/-- `hmac_sha256 : (key, message) -> 32-byte string` (R185). -/
def hmacSha256 (k m : List Byte) : List Byte :=
  sha256 ((hmacKey k).map (· ^^^ 0x5C) ++ sha256 ((hmacKey k).map (· ^^^ 0x36) ++ m))

/-- `ct_eq(a, b)`: every index is visited (R186). -/
def ctEq (a b : List Byte) : Bool :=
  if a.length ≠ b.length then false
  else (a.zip b).foldl (fun (acc : Byte) (p : Byte × Byte) => acc ||| (p.1 ^^^ p.2)) 0 == 0

end Sys2Proof.Config
end

