-- ==== Sys2Proof/Machine/Operands.lean ====
section
/-! DEFINITION. The operands the commands take from the buffers, and the layouts of the frame header and of the
packet (spec/30_encoding.md R72, R77, R78, R84; spec/41_frame_codec.md R110). -/

namespace Sys2Proof.Machine

/-- `IBUF[0..ILEN)`, the byte-string operand of every command that takes one (R22, R72). -/
def input (s : State) : List Byte := s.memRead .ibuf 0 s.ilen.toNat

/-- `hdr(p, seq) = le16(len(p)) ‖ le16(seq) ‖ le32(crc32(p))` (R78, R110). -/
def hdr (p : List Byte) (seq : Half) : List Byte :=
  le16 (BitVec.ofNat 16 p.length) ++ le16 seq ++ le32 (Config.crc32 p)

/-- A frame header taken apart (R78, R110). -/
structure HdrFields where
  /-- `length`. -/
  length : Half
  /-- `sequence`. -/
  sequence : Half
  /-- `crc32`. -/
  crc : Word
deriving DecidableEq, Repr

/-- `fields(h) = (from_le(h[0..2)), from_le(h[2..4)), from_le(h[4..8)))` (R110). -/
def fields (h : List Byte) : HdrFields :=
  { length := BitVec.ofNat 16 (fromLe (slice h 0 2)),
    sequence := BitVec.ofNat 16 (fromLe (slice h 2 4)),
    crc := BitVec.ofNat 32 (fromLe (slice h 4 8)) }

/-- The eight bytes of HBUF from a header's byte string (R36, R131). -/
def latch (h : List Byte) : Vector Byte 8 :=
  #v[h.getD 0 0, h.getD 1 0, h.getD 2 0, h.getD 3 0, h.getD 4 0, h.getD 5 0, h.getD 6 0, h.getD 7 0]

/-- `(RLEN, RSEQ, RCRC) <- f` (R24 to R26). -/
def setFields (f : HdrFields) (s : State) : State :=
  { s with rlen := f.length, rseq := f.sequence, rcrc := f.crc }

/-- The result registers of a payload that is encoded or sent: `RLEN <- ILEN; RSEQ <- seq; RCRC <- crc32(p)`
(R111, R115, R131). -/
def setEncoded (seq : Half) (s : State) : State :=
  { s with rlen := s.ilen, rseq := seq, rcrc := Config.crc32 (input s) }

/-- The packet header `[dst, src, flags, seq, len]` (R84, R201). -/
def pktHeader (dst src flags seq : Byte) (n : Nat) : List Byte :=
  [dst, src, flags, seq, BitVec.ofNat 8 n]

/-- The packet footer `le32(boot_count) ‖ le32(msg_id)` (R51, R84, R201). -/
def pktFooter (boot msg : Word) : List Byte := le32 boot ++ le32 msg

/-- What the tag covers: `header ‖ data ‖ footer` (R85, R201). -/
def pktBody (dst src flags seq : Byte) (data : List Byte) (boot msg : Word) : List Byte :=
  pktHeader dst src flags seq data.length ++ data ++ pktFooter boot msg

/-- The whole packet `header ‖ data ‖ footer ‖ hmac` (R84, R85, R201). -/
def packet (key : List Byte) (dst src flags seq : Byte) (data : List Byte) (boot msg : Word) : List Byte :=
  pktBody dst src flags seq data boot msg ++ Config.hmacSha256 key (pktBody dst src flags seq data boot msg)

end Sys2Proof.Machine
end

