-- ==== Sys2Proof/Machine/FrameCodec.lean ====
section
/-! DEFINITION. CRC32 (spec/40_crc32.md R101) and the frame codec commands ENC_HDR, DEC_HDR, FRM_ENC, FRM_DEC
(spec/41_frame_codec.md R110 to R118). -/

namespace Sys2Proof.Machine

/-- `CRC32`: `RCRC <- crc32(IBUF[0..ILEN))` (R101). -/
def execCrc32 (s : State) : Result :=
  whenIdle s <| withinBuffer s.ilen.toNat <|
    .next (complete { s with rcrc := Config.crc32 (input s) })

/-- The pseudocode of `ENC_HDR` (R111). -/
def encHdr (seq : Half) (s : State) : State :=
  if s.ilen.toNat > Config.maxPacketSize then takeError .length s
  else complete { setEncoded seq (s.writeObuf 0 (hdr (input s) seq)) with olen := 8 }

/-- `ENC_HDR seq`: the frame header of the payload in IBUF (R111). -/
def execEncHdr (seq : Half) (s : State) : Result := whenIdle s (.next (encHdr seq s))

/-- The pseudocode of `DEC_HDR` (R113): exactly eight bytes, and no range check of the length. -/
def decHdr (s : State) : State :=
  if s.ilen.toNat < Config.hdrLen then takeError .short s
  else if s.ilen.toNat > Config.hdrLen then takeError .format s
  else complete (setFields (fields (s.memRead .ibuf 0 8)) s)

/-- `DEC_HDR`: takes a frame header apart (R113, R114). -/
def execDecHdr (s : State) : Result := whenIdle s (.next (decHdr s))

/-- The pseudocode of `FRM_ENC` (R115). -/
def frmEnc (seq : Half) (s : State) : State :=
  if s.ilen.toNat > Config.maxPacketSize then takeError .length s
  else complete
    { setEncoded seq ((s.writeObuf 0 (hdr (input s) seq)).writeObuf 8 (input s)) with
      olen := BitVec.ofNat 16 (8 + s.ilen.toNat) }

/-- `FRM_ENC seq`: header and payload to OBUF (R115). -/
def execFrmEnc (seq : Half) (s : State) : Result := whenIdle s (.next (frmEnc seq s))

/-- The pseudocode of `FRM_DEC`, its checks in R117's order: header short, oversized, payload short, trailing
bytes, CRC. -/
def frmDec (s : State) : State :=
  let n := s.ilen.toNat
  let f := fields (s.memRead .ibuf 0 8)
  let l := f.length.toNat
  if n < Config.hdrLen then takeError .short s
  else if l > Config.maxPacketSize then takeError .length s
  else if n - 8 < l then takeError .short s
  else if n - 8 > l then takeError .format s
  else if Config.crc32 (s.memRead .ibuf 8 l) ≠ f.crc then takeError .crc s
  else complete { setFields f (s.writeObuf 0 (s.memRead .ibuf 8 l)) with olen := f.length }

/-- `FRM_DEC`: validates a frame and delivers its payload (R117, R118). -/
def execFrmDec (s : State) : Result := whenIdle s (.next (frmDec s))

end Sys2Proof.Machine
end

