-- ==== Sys2Proof/Machine/FrameTx.lean ====
section
/-! DEFINITION. The transmit handshake sequencer: TX_START and the transitions of the three transmit states
(spec/42_frame_tx.md R130 to R140). -/

namespace Sys2Proof.Machine

/-- A link event as the sequencer sees it: a byte or a read timeout (spec/43_frame_rx_parser.md R152). -/
inductive LinkEvent where
  | byte (b : Byte)
  | timeout
deriving DecidableEq, Repr

/-- "`LINK_BYTE 0x21` is an acknowledgement; `LINK_BYTE b` with `b ≠ 0x21`, and `LINK_TIMEOUT`, are both
unacknowledged" (R132). -/
def isAck : LinkEvent → Bool
  | .byte b => b == Config.ackByte
  | .timeout => false

/-- The sync run: `rep(SYNC_BYTE, 3)` (R131, R135). -/
def syncBytes (s : State) : List Byte := rep s.params.syncByte Config.syncRun

/-- The pseudocode of `TX_START` (R131): clear the link record, latch the header, send the sync run. -/
def txStart (seq : Half) (s : State) : State :=
  if s.ilen.toNat > Config.maxPacketSize then takeError .length s
  else complete <| emit (syncBytes s)
    { setEncoded seq (clearLink s) with
      hbuf := latch (hdr (input s) seq), txTries := 1, lstate := .txWaitSyncAck }

/-- `TX_START seq`: starts the transmit handshake for the payload in IBUF (R131). -/
def execTxStart (seq : Half) (s : State) : Result := whenIdle s (.next (txStart seq s))

/-- `TX_WAIT_SYNC_ACK` (R135, rows 1 to 3; R136). -/
def txSyncAck (ev : LinkEvent) (s : State) : Result :=
  if isAck ev then
    .next (complete { emit ([Config.startByte] ++ s.hbuf.toList) s with lstate := .txWaitHdrAck })
  else if s.txTries.toNat < Config.syncRetries then
    .next (complete (emit (syncBytes s) { s with txTries := s.txTries + 1 }))
  else .next (complete (linkEnd .txFail .syncUnacked 3 3 s))

/-- `TX_WAIT_HDR_ACK` (R135, rows 4 and 5): the payload is read from IBUF when it is emitted (R133). -/
def txHdrAck (ev : LinkEvent) (s : State) : Result :=
  if isAck ev then
    withinBuffer s.ilen.toNat (.next (complete { emit (input s) s with lstate := .txWaitPayAck }))
  else .next (complete (linkEnd .txFail .headerUnacked 0 0 s))

/-- `TX_WAIT_PAY_ACK` (R135, rows 6 and 7). -/
def txPayAck (ev : LinkEvent) (s : State) : Result :=
  if isAck ev then .next (complete (linkEnd .txOk .none 0 0 s))
  else .next (complete (linkEnd .txFail .payloadUnacked 0 0 s))

end Sys2Proof.Machine
end

