-- ==== Sys2Proof/Machine/FrameRx.lean ====
section
/-! DEFINITION. The receive frame parser: RX_START, the link events LINK_BYTE and LINK_TIMEOUT in every state, and
LINK_ABORT (spec/43_frame_rx_parser.md R150 to R167). -/

namespace Sys2Proof.Machine

/-- `RX_START`: clear the link record, invalidate the old result, start the hunt (R151). -/
def execRxStart (s : State) : Result :=
  whenIdle s (.next (complete { clearLink s with olen := 0, lstate := .rxHunt }))

/-- `rx_finish()`: verify the CRC, and only then acknowledge and deliver (R163). -/
def rxFinish (s : State) : Result :=
  withinBuffer s.rlen.toNat <|
    let c := Config.crc32 (s.memRead .obuf 0 s.rlen.toNat)
    if c ≠ s.rcrc then .next (complete (linkEnd .rxNone .crcMismatch s.rcrc c s))
    else .next (complete (linkEnd .rxOk .none 0 0 { emit [Config.ackByte] s with olen := s.rlen }))

/-- `RX_HUNT` (R156): a run of three consecutive sync bytes, or the timeout. -/
def rxHunt (ev : LinkEvent) (s : State) : Result :=
  match ev with
  | .byte b =>
    if b = s.params.syncByte then
      if s.syncCnt + 1 = BitVec.ofNat 2 Config.syncRun then
        .next (complete (emit [Config.ackByte]
          { s with syncCnt := s.syncCnt + 1, missCnt := 0, lstate := .rxWaitStart }))
      else .next (complete { s with syncCnt := s.syncCnt + 1 })
    else .next (complete { s with syncCnt := 0 })
  | .timeout => .next (complete (linkEnd .rxNone .noData 0 0 s))

/-- `RX_WAIT_START` (R158): the start marker, or the tenth other byte, or the timeout. -/
def rxWaitStart (ev : LinkEvent) (s : State) : Result :=
  match ev with
  | .byte b =>
    if b = Config.startByte then .next (complete { s with byteIdx := 0, lstate := .rxHeader })
    else if s.missCnt + 1 = BitVec.ofNat 4 Config.startSearchLimit then
      .next (complete (linkEnd .rxNone .startNotFound 1 10 { s with missCnt := s.missCnt + 1 }))
    else .next (complete { s with missCnt := s.missCnt + 1 })
  | .timeout => .next (complete (linkEnd .rxNone .startTimeout 1 0 s))

/-- What follows the eighth header byte (R160, R161): decode, refuse an oversized length unacknowledged, else
acknowledge and go on, or finish at once when there is no payload. -/
def rxHeaderDone (s : State) : Result :=
  let t := setFields (fields s.hbuf.toList) s
  if t.rlen.toNat > Config.maxPacketSize then
    .next (complete (linkEnd .rxNone .oversize 4096 (t.rlen.setWidth 32) t))
  else if t.rlen = 0 then rxFinish { emit [Config.ackByte] t with byteIdx := 0 }
  else .next (complete { emit [Config.ackByte] t with byteIdx := 0, lstate := .rxPayload })

/-- `RX_HEADER` (R160): `BYTE_IDX < 8` at every header write (R326). -/
def rxHeader (ev : LinkEvent) (s : State) : Result :=
  match ev with
  | .byte b =>
    if s.byteIdx.toNat < Config.hdrLen then
      let t := { s with hbuf := s.hbuf.setIfInBounds s.byteIdx.toNat b, byteIdx := s.byteIdx + 1 }
      if t.byteIdx.toNat = Config.hdrLen then rxHeaderDone t else .next (complete t)
    else .fault .outsideBuffer
  | .timeout => .next (complete (linkEnd .rxNone .headerShort 8 (s.byteIdx.setWidth 32) s))

/-- `RX_PAYLOAD` (R162): the byte goes straight to `OBUF[BYTE_IDX]`. -/
def rxPayload (ev : LinkEvent) (s : State) : Result :=
  match ev with
  | .byte b =>
    withinBuffer (s.byteIdx.toNat + 1) <|
      let t := { s.writeObuf s.byteIdx.toNat [b] with byteIdx := s.byteIdx + 1 }
      if t.byteIdx.toNat = t.rlen.toNat then rxFinish t else .next (complete t)
  | .timeout =>
    .next (complete (linkEnd .rxNone .payloadShort (s.rlen.setWidth 32) (s.byteIdx.setWidth 32) s))

/-- A link event in every `LSTATE` (R152, R153): refused with `ERR_STATE` in `IDLE`. -/
def linkEvent (ev : LinkEvent) (s : State) : Result :=
  match s.lstate with
  | .idle => .next (takeError .state s)
  | .rxHunt => rxHunt ev s
  | .rxWaitStart => rxWaitStart ev s
  | .rxHeader => rxHeader ev s
  | .rxPayload => rxPayload ev s
  | .txWaitSyncAck => txSyncAck ev s
  | .txWaitHdrAck => txHdrAck ev s
  | .txWaitPayAck => txPayAck ev s

/-- `LINK_BYTE byte`: one byte read from the byte channel (R152). -/
def execLinkByte (b : Byte) (s : State) : Result := linkEvent (.byte b) s

/-- `LINK_TIMEOUT`: the channel's read timeout expired with no byte (R152). -/
def execLinkTimeout (s : State) : Result := linkEvent .timeout s

/-- `LINK_ABORT`: ends whatever link activity is in progress, and is a no-op in `IDLE` (R166). -/
def execLinkAbort (s : State) : Result :=
  .next (complete (if s.lstate = .idle then s else linkEnd .aborted .hostAbort 0 0 s))

end Sys2Proof.Machine
end

