-- ==== Sys2Proof/Machine/Hash.lean ====
section
/-! DEFINITION. The command SHA256 (spec/44_sha256_hmac.md R187). -/

namespace Sys2Proof.Machine

/-- `SHA256`: `OBUF[0..32) <- sha256(IBUF[0..ILEN)); OLEN <- 32` (R187). -/
def execSha256 (s : State) : Result :=
  whenIdle s <| withinBuffer s.ilen.toNat <|
    .next (complete { s.writeObuf 0 (Config.sha256 (input s)) with olen := 32 })

end Sys2Proof.Machine
end

