-- ==== Sys2Proof/Machine/PacketCodec.lean ====
section
/-! DEFINITION. The authenticated packet codec: PKT_CREATE and PKT_PARSE (spec/45_packet_codec.md R200 to R218). -/

namespace Sys2Proof.Machine

/-- The pseudocode of `PKT_CREATE` (R201): the length check, then the counter check, then the increment (R203,
R204); the trailer is appended whatever `CFG` says. -/
def pktCreate (dst src flags seq : Byte) (s : State) : State :=
  if s.ilen.toNat > Config.dataMax then takeError .length s
  else if s.msgId = Config.msgIdMax then takeError .ctr s
  else
    let t := advanceMsgId s
    complete
      { t.writeObuf 0 (packet s.params.key dst src flags seq (input s) t.bootCount t.msgId) with
        olen := BitVec.ofNat 16 (Config.pktOverhead + s.ilen.toNat),
        rboot := t.bootCount, rmsg := t.msgId }

/-- `PKT_CREATE dst, src, flags, seq`: advance `msg_id` and build the authenticated packet in OBUF (R201). -/
def execPktCreate (dst src flags seq : Byte) (s : State) : Result :=
  whenIdle s (.next (pktCreate dst src flags seq s))

/-- What `PKT_PARSE` delivers once its checks have passed, from the packet `p` with declared data length `l` and
the verdict `ok` on its tag (R211). -/
def pktDeliver (p : List Byte) (l : Nat) (ok : Bool) (s : State) : State :=
  { setParseFlags s.authEn ok (s.writeObuf 0 (slice p 5 (5 + l))) with
    rdst := p.getD 0 0, rsrc := p.getD 1 0, rflg := p.getD 2 0, rseq := (p.getD 3 0).setWidth 16,
    rlen := BitVec.ofNat 16 l, olen := BitVec.ofNat 16 l,
    rboot := if ok then BitVec.ofNat 32 (fromLe (slice p (5 + l) (9 + l))) else 0,
    rmsg := if ok then BitVec.ofNat 32 (fromLe (slice p (9 + l) (13 + l))) else 0 }

/-- The pseudocode of `PKT_PARSE` after the flags are cleared (R211): `s` is the state with the flags cleared, so
an error taken here keeps the clearing (R212, R270). -/
def pktParse (s : State) : State :=
  let p := input s
  let n := s.ilen.toNat
  let l := (p.getD 4 0).toNat
  if n < Config.pktHdrLen then takeError .short s
  else if s.authEn then
    if n < Config.pktOverhead + l then takeError .short s
    else if n > Config.pktOverhead + l then takeError .format s
    else
      let ok := Config.ctEq (slice p (n - 32) n) (Config.hmacSha256 s.params.key (slice p 0 (n - 32)))
      if !ok && s.authEnforce then takeError .auth s
      else complete (pktDeliver p l ok s)
  else if n < Config.pktHdrLen + l then takeError .short s
  else complete (pktDeliver p l false s)

/-- `PKT_PARSE`: verifies and takes apart the packet in IBUF (R211 to R217). -/
def execPktParse (s : State) : Result := whenIdle s (.next (pktParse (clearParseFlags s)))

end Sys2Proof.Machine
end

