-- ==== Sys2Proof/Machine/System.lean ====
section
/-! DEFINITION. The system commands NOP, WR_CFG, CLR_STICKY (spec/47_system_ops.md R250 to R253). -/

namespace Sys2Proof.Machine

/-- `NOP`: "changes nothing but `STATUS.ERR <- OK`", in every `LSTATE` (R250). -/
def execNop (s : State) : Result := .next (complete s)

/-- `WR_CFG cfg`: the three bits of `CFG` (R251). -/
def execWrCfg (cfg : BitVec 3) (s : State) : Result :=
  whenIdle s (.next (complete { s with cfg := cfg }))

/-- `CLR_STICKY`: `BOOT_ANOMALY <- 0` (R252). -/
def execClrSticky (s : State) : Result :=
  whenIdle s (.next (complete { s with bootAnomaly := false }))

end Sys2Proof.Machine
end

