-- ==== Sys2Proof/Machine/Dispatch.lean ====
section
/-! DEFINITION. The effect of a command, one arm per row of spec/opcode_table.json (spec/48_common_semantics.md
R321). -/

namespace Sys2Proof.Machine

def exec (i : Instr) (s : State) : Host.Outcome State Fault Refusal :=
  match i with
  | .nop => Sys2Proof.Machine.execNop s
  | .wrCfg cfg => Sys2Proof.Machine.execWrCfg cfg s
  | .clrSticky => Sys2Proof.Machine.execClrSticky s
  | .crc32 => Sys2Proof.Machine.execCrc32 s
  | .encHdr seq => Sys2Proof.Machine.execEncHdr seq s
  | .decHdr => Sys2Proof.Machine.execDecHdr s
  | .frmEnc seq => Sys2Proof.Machine.execFrmEnc seq s
  | .frmDec => Sys2Proof.Machine.execFrmDec s
  | .txStart seq => Sys2Proof.Machine.execTxStart seq s
  | .rxStart => Sys2Proof.Machine.execRxStart s
  | .linkByte byte => Sys2Proof.Machine.execLinkByte byte s
  | .linkTimeout => Sys2Proof.Machine.execLinkTimeout s
  | .linkAbort => Sys2Proof.Machine.execLinkAbort s
  | .sha256 => Sys2Proof.Machine.execSha256 s
  | .pktCreate dst src flags seq => Sys2Proof.Machine.execPktCreate dst src flags seq s
  | .pktParse => Sys2Proof.Machine.execPktParse s
  | .advMsgid => Sys2Proof.Machine.execAdvMsgid s
  | .syncBoot value => Sys2Proof.Machine.execSyncBoot value s
  | .nvLoad => Sys2Proof.Machine.execNvLoad s

end Sys2Proof.Machine
end

