-- ==== Sys2Proof/Machine/Port.lean ====
section
/-! DEFINITION. The command port, the register map and the environment's moves (spec/48_common_semantics.md R320,
R321; spec/20_memory.md R57 to R67; spec/70_reset_and_hazards.md R290). -/

namespace Sys2Proof.Machine

/-! ### Issuing a command (R321) -/

/-- A decoded word: a command is executed; a word that is none does nothing but `ERR <- ERR_ILLEGAL`, in every
`LSTATE` (R321, spec/30_encoding.md R74, spec/60_exceptions.md R261). A `LINK_BYTE` issued here carries its byte in its
argument and leaves RXIN as it is: DESIGN CHOICE (log entry 18); the channel's own events are `deliver`. -/
def issueDecoded (d : Except DecodeError Instr) (s : State) : Result :=
  match d with
  | .ok i => exec i s
  | .error _ => .next (takeError .illegal s)

/-- `cmd(W)` (R321). -/
def issue (w : CmdWord) (s : State) : Result := issueDecoded (decode w) s

/-! ### The host's load (spec/20_memory.md R57) -/

/-- `LOAD(s)`: `IBUF[0..len(s)) <- s; ILEN <- len(s)`. It is no command and does not change `STATUS.ERR`. It is
enabled only in `IDLE` and up to `BUF_CAP` bytes (R320 (b); log entry 7). -/
def hostLoad (bs : List Byte) (s : State) : Result :=
  if s.lstate ≠ .idle then .refused .loadWhileActive
  else if bs.length > Config.bufCap then .refused .loadTooLong
  else .next { s.writeIbuf 0 bs with ilen := BitVec.ofNat 16 bs.length }

/-! ### The register map (spec/20_memory.md R66) -/

/-- The base of the IBUF window: byte `i` at 0x2000 + i. -/
abbrev ibufBase : Nat := 0x2000

/-- The base of the OBUF window: byte `i` at 0x4000 + i. -/
abbrev obufBase : Nat := 0x4000

/-- A byte address lies in the window of a buffer. -/
def inWindow (base addr : Nat) : Bool := base ≤ addr && addr < base + Config.bufCap

/-- The register words at their addresses. `ARG` and `OP` are write-only and an address inside a register names no
whole register: the spec gives a read there no value (R55, R66; log entry 8). -/
def registerWord (s : State) (addr : Nat) : Word :=
  match addr with
  | 0x08 => statusWord s
  | 0x0C => cfgWord s
  | 0x10 => s.ilen.setWidth 32
  | 0x14 => s.olen.setWidth 32
  | 0x18 => s.rlen.setWidth 32
  | 0x1C => s.rseq.setWidth 32
  | 0x20 => s.rcrc
  | 0x24 => s.rdst.setWidth 32
  | 0x28 => s.rsrc.setWidth 32
  | 0x2C => s.rflg.setWidth 32
  | 0x30 => s.rboot
  | 0x34 => s.rmsg
  | 0x38 => s.bootCount
  | 0x3C => s.msgId
  | 0x40 => lstatWord s
  | 0x44 => s.lexp
  | 0x48 => s.lact
  | _ => Config.unstatedRead s.epoch addr

/-- What a host read at a byte address answers: a byte of a window, zero-extended; 0 at a reserved address; a whole
register, narrower ones zero-extended (R55, R66). Every address answers: there is no access fault (R55). -/
def hostRead (s : State) (addr : Nat) : Word :=
  if inWindow ibufBase addr then (s.byteAt .ibuf (addr - ibufBase)).setWidth 32
  else if inWindow obufBase addr then (s.byteAt .obuf (addr - obufBase)).setWidth 32
  else if 0x4C ≤ addr then 0
  else registerWord s addr

/-- A host write of a whole register: `ARG`, `OP` (which issues the command), `ILEN` (a value above 4104 is ignored);
a write to a read-only register is ignored (R57, R66). `ILEN` takes no write while `LSTATE ≠ IDLE` (I3; log
entry 7). -/
def writeRegister (addr : Nat) (v : Word) (s : State) : Result :=
  if addr = 0x00 then .next { s with arg := v }
  else if addr = 0x04 then issueDecoded (decodePort v s.arg) s
  else if addr = 0x10 then
    if s.lstate ≠ .idle then .refused .loadWhileActive
    else if v.toNat > Config.bufCap then .next s
    else .next { s with ilen := v.setWidth 16 }
  else .next s

/-- A host write of a value at a byte address: a byte of the IBUF window (the low 8 bits of the value), or a register;
a write anywhere else is ignored (R57, R66). The IBUF window takes no write while `LSTATE ≠ IDLE` (I3; log entries
7, 8). At an address inside a register the write acts on that register or is ignored, which of the two is open
(R55: there is no misaligned-access fault; log entry 17). -/
def hostWrite (addr : Nat) (v : Word) (s : State) : Result :=
  if inWindow ibufBase addr then
    if s.lstate ≠ .idle then .refused .loadWhileActive
    else .next (s.writeIbuf (addr - ibufBase) [v.extractLsb' 0 8])
  else if 0x4C ≤ addr then .next s
  else if addr % 4 = 0 || Config.writeInsideActs addr then writeRegister (addr - addr % 4) v s
  else .next s

/-- A host read as a move: at every address it changes nothing, whatever it answers (R21, R56, R320 (d)). -/
def readMove (_addr : Nat) (s : State) : Result := .next s

/-! ### The byte channel (spec/20_memory.md R60, R67) -/

/-- The channel presents its oldest byte as a `LINK_BYTE`, and only while `LSTATE ≠ IDLE`: in `IDLE`, or with no
byte, nothing is presented and the byte stays in the channel (R67). -/
def deliver (s : State) : Result :=
  match s.rxin with
  | [] => .next s
  | b :: rest => if s.lstate = .idle then .next s else exec (.linkByte b) { s with rxin := rest }

/-- The channel's read timeout expires: it presents a `LINK_TIMEOUT`, and only while `LSTATE ≠ IDLE` (R67,
spec/70_reset_and_hazards.md R303; log entry 9). -/
def channelTimeout (s : State) : Result :=
  if s.lstate = .idle then .next s else exec .linkTimeout s

/-! ### Moves (R320) -/

/-- One move of the environment. -/
def runMove (m : Move) (s : State) : Result :=
  match m with
  | .cmd w => issue w s
  | .load bs => hostLoad bs s
  | .write addr v => hostWrite addr v s
  | .read addr => readMove addr s
  | .reset => .next (resetBlock s)
  | .arrive b => .next { s with rxin := s.rxin ++ [b] }
  | .deliver => deliver s
  | .timeout => channelTimeout s

/-- The next move in the one total order of R59, made on the state without it; with none pending the block waits
(spec/70_reset_and_hazards.md R292; log entry 1). -/
def takeMove (s : State) : Result :=
  match s.moves with
  | [] => .next s
  | m :: rest => runMove m { s with moves := rest }

/-- A command word placed first in the order of moves, so that the next step issues it (log entry 1). -/
def present (w : CmdWord) (s : State) : State := { s with moves := .cmd w :: s.moves }

end Sys2Proof.Machine
end

