-- ==== Sys2Proof/Machine/Step.lean ====
section
/-! DEFINITION. One step of the machine: the next move of the environment in the one total order
(spec/48_common_semantics.md R320, spec/20_memory.md R59), and where a test puts a command word for the next step to
run. -/

namespace Sys2Proof.Machine

/-- One step: the next pending move, or a wait where none is pending. -/
def step (s : State) : Host.Outcome State Fault Refusal := takeMove s

/-- The state whose next step runs the command word `w`: the word is presented at the command port before every
other pending move. A command is one 40-bit word (spec/30_encoding.md R70), so its bits are `w`'s. -/
def State.withFetchWord (s : State) (_nbits w : Nat) : State := present (BitVec.ofNat 40 w) s

end Sys2Proof.Machine
end

