-- ==== Sys2Proof/Machine/Assembler.lean ====
section
/-! DEFINITION. The assembler's lines and the pseudo-instructions (spec/30_encoding.md R75, R76): from text to a
command, and from a pseudo-instruction to moves. -/

namespace Sys2Proof.Machine

/-! ### Text to an assembler line (R75; log entry 16) -/

/-- The value of a digit in a base of at most sixteen. -/
def digitValue (base : Nat) (c : Char) : Option Nat :=
  let v := if '0' ≤ c ∧ c ≤ '9' then c.toNat - '0'.toNat
    else if 'a' ≤ c ∧ c ≤ 'f' then c.toNat - 'a'.toNat + 10
    else if 'A' ≤ c ∧ c ≤ 'F' then c.toNat - 'A'.toNat + 10
    else base
  if v < base then some v else none

/-- Digits read from the left, after a value already read. -/
def readDigits (base : Nat) : Nat → List Char → Option Nat
  | acc, [] => some acc
  | acc, c :: cs => (digitValue base c).bind fun d => readDigits base (acc * base + d) cs

/-- "each a decimal or `0x` hexadecimal number" (R75). -/
def readNumber : List Char → Option Nat
  | [] => none
  | '0' :: 'x' :: c :: cs => readDigits 16 0 (c :: cs)
  | c :: cs => readDigits 10 0 (c :: cs)

/-- A text without the blanks at its two ends. -/
def trimBlanks (cs : List Char) : List Char :=
  ((cs.dropWhile (· == ' ')).reverse.dropWhile (· == ' ')).reverse

/-- The parts of a text between commas. -/
def splitCommas : List Char → List (List Char)
  | [] => [[]]
  | c :: cs =>
    match splitCommas cs with
    | [] => [[c]]
    | p :: ps => if c = ',' then [] :: p :: ps else (c :: p) :: ps

/-- The operands of a line: none, or numbers separated by commas (R75). -/
def readOperands (cs : List Char) : Option (List Nat) :=
  match trimBlanks cs with
  | [] => some []
  | t => (splitCommas t).mapM fun p => readNumber (trimBlanks p)

/-- One line of assembler text: "`;` starts a comment", the mnemonic, then its operands (R75). -/
def readLine (cs : List Char) : Option AsmLine :=
  let t := trimBlanks (cs.takeWhile (· != ';'))
  let m := t.takeWhile (· != ' ')
  (readOperands (t.drop m.length)).map fun ops => { mnemonic := String.ofList m, operands := ops }

/-! ### An assembler line to a command (R75) -/

/-- The command of an assembler line: none where the line is not well formed, "never truncated". -/
def assemble (l : AsmLine) : Option Instr :=
  if l.wellFormed then
    match l.mnemonic, l.operands with
    | "NOP", [] => some .nop
    | "WR_CFG", [c] => some (.wrCfg (BitVec.ofNat 3 c))
    | "CLR_STICKY", [] => some .clrSticky
    | "CRC32", [] => some .crc32
    | "ENC_HDR", [q] => some (.encHdr (BitVec.ofNat 16 q))
    | "DEC_HDR", [] => some .decHdr
    | "FRM_ENC", [q] => some (.frmEnc (BitVec.ofNat 16 q))
    | "FRM_DEC", [] => some .frmDec
    | "TX_START", [q] => some (.txStart (BitVec.ofNat 16 q))
    | "RX_START", [] => some .rxStart
    | "LINK_BYTE", [b] => some (.linkByte (BitVec.ofNat 8 b))
    | "LINK_TIMEOUT", [] => some .linkTimeout
    | "LINK_ABORT", [] => some .linkAbort
    | "SHA256", [] => some .sha256
    | "PKT_CREATE", [d, s, f, q] =>
      some (.pktCreate (BitVec.ofNat 8 d) (BitVec.ofNat 8 s) (BitVec.ofNat 8 f) (BitVec.ofNat 8 q))
    | "PKT_PARSE", [] => some .pktParse
    | "ADV_MSGID", [] => some .advMsgid
    | "SYNC_BOOT", [v] => some (.syncBoot (BitVec.ofNat 32 v))
    | "NV_LOAD", [] => some .nvLoad
    | _, _ => none
  else none

/-! ### Pseudo-instructions (R76) -/

/-- What stands on a line of a test program (R76). -/
inductive Pseudo where
  /-- A command of R73. -/
  | command (i : Instr)
  /-- `LOAD s`: the host load; it is no command. -/
  | load (bs : List Byte)
  /-- `FEED b0 b1 ... bn`: one `LINK_BYTE` per byte, in that order. -/
  | feed (bs : List Byte)
  /-- `CFG_OPERATIONAL` is `WR_CFG 7`. -/
  | cfgOperational
  /-- `CFG_DIAGNOSTIC` is `WR_CFG 5`. -/
  | cfgDiagnostic
deriving DecidableEq, Repr

/-- The moves a line stands for (R76). -/
def Pseudo.expand : Pseudo → List Move
  | .command i => [.cmd (encode i)]
  | .load bs => [.load bs]
  | .feed bs => bs.map fun b => .cmd (encode (.linkByte b))
  | .cfgOperational => [.cmd (encode (.wrCfg 7))]
  | .cfgDiagnostic => [.cmd (encode (.wrCfg 5))]

/-- `EXPECT name = value`: an assertion on a register, on `OBUF[0..OLEN)` or on TXOUT; it has no encoding (R76). -/
inductive Expectation where
  /-- A register, by its address in the register map (spec/20_memory.md R66). -/
  | register (addr : Nat) (value : Word)
  | obuf (bs : List Byte)
  | txout (bs : List Byte)
deriving DecidableEq, Repr

/-- The assertion holds of a state; TXOUT is the trace since the start of the program (R76). -/
def Expectation.holds (e : Expectation) (s : State) : Bool :=
  match e with
  | .register addr v => hostRead s addr == v
  | .obuf bs => s.memRead .obuf 0 s.olen.toNat == bs
  | .txout bs => s.txout == bs

end Sys2Proof.Machine
end

