-- ==== Sys2Proof/Safety.lean ====
section
/-! DEFINITION. What a sound state and a safe step are, in the terms of the spec's rules: the invariants the rules
name, and that a step does not fault. -/

namespace Sys2Proof.Safety

open Sys2Proof.Machine

/-- The registers and NV agree between commands: `BOOT_COUNT = NV.boot_count` and `MSG_ID = NV.msg_id`
(spec/10_state.md R37). -/
abbrev CountersSaved (s : State) : Prop := s.bootCount = s.nvBoot ∧ s.msgId = s.nvMsg

/-- `ILEN` and `OLEN` are within the buffers (spec/10_state.md R22, R23), and each buffer's contents are in
canonical form. -/
abbrev BuffersSound (s : State) : Prop :=
  s.ilen.toNat ≤ Config.bufCap ∧ s.olen.toNat ≤ Config.bufCap ∧ s.ibuf.wf ∧ s.obuf.wf

/-- At most one of `AUTH_OK`, `AUTH_WARN` is 1, and `FOOTER_VALID = 1` iff `AUTH_OK = 1` (spec/10_state.md R31). -/
abbrev FlagsSound (s : State) : Prop :=
  ¬ (s.authOk = true ∧ s.authWarn = true) ∧ s.footerValid = s.authOk

/-- Which results go with which cause (spec/60_exceptions.md R263): "`RX_NONE` for causes 1 to 7, `TX_FAIL` for 8 to
10, `ABORTED` for 11, and `NONE`, `RX_OK` or `TX_OK` for 0". -/
def resultFits : LCause → LResult → Bool
  | .none, .none | .none, .rxOk | .none, .txOk => true
  | .noData, .rxNone | .startTimeout, .rxNone | .startNotFound, .rxNone | .headerShort, .rxNone
  | .oversize, .rxNone | .payloadShort, .rxNone | .crcMismatch, .rxNone => true
  | .syncUnacked, .txFail | .headerUnacked, .txFail | .payloadUnacked, .txFail => true
  | .hostAbort, .aborted => true
  | _, _ => false

/-- The link record is consistent: result and cause go together, without a cause `LEXP` and `LACT` are 0, and while
an activity is in progress there is no result yet (spec/10_state.md R34, R36; spec/43_frame_rx_parser.md R154). -/
abbrev LinkRecordSound (s : State) : Prop :=
  resultFits s.lcause s.lresult = true ∧
  (s.lcause = .none → s.lexp = 0 ∧ s.lact = 0) ∧
  (s.lstate ≠ .idle → s.lresult = .none)

/-- The counters of the sequencer are within the bounds of their state (spec/10_state.md R35,
spec/48_common_semantics.md R322, R326). -/
def CountersSound (s : State) : Prop :=
  s.missCnt.toNat ≤ 10 ∧ s.byteIdx.toNat ≤ 4096 ∧
  match s.lstate with
  | .idle => True
  | .rxHunt => s.syncCnt.toNat < 3 ∧ s.missCnt = 0 ∧ s.byteIdx = 0 ∧ s.olen = 0
  | .rxWaitStart => s.missCnt.toNat < 10 ∧ s.byteIdx = 0 ∧ s.olen = 0
  | .rxHeader => s.missCnt.toNat < 10 ∧ s.byteIdx.toNat < 8 ∧ s.olen = 0
  | .rxPayload =>
    s.missCnt.toNat < 10 ∧ s.rlen.toNat ≤ 4096 ∧ s.byteIdx.toNat < s.rlen.toNat ∧ s.olen = 0
  | .txWaitSyncAck | .txWaitHdrAck | .txWaitPayAck =>
    1 ≤ s.txTries.toNat ∧ s.missCnt = 0 ∧ s.byteIdx = 0 ∧ s.ilen.toNat ≤ 4096

/-- A sequencer state that belongs to a transmission (spec/42_frame_tx.md R135). -/
def transmitting : LState → Bool
  | .txWaitSyncAck | .txWaitHdrAck | .txWaitPayAck => true
  | .idle | .rxHunt | .rxWaitStart | .rxHeader | .rxPayload => false

/-- While a transmission is in progress the latched header describes the payload that will be sent: "header and
payload always describe the same bytes" (spec/42_frame_tx.md R133). -/
abbrev HeaderMatchesPayload (s : State) : Prop :=
  transmitting s.lstate = true →
    s.hbuf.toList = hdr (input s) s.rseq ∧ s.rlen = s.ilen ∧ s.rcrc = Config.crc32 (input s)

/-- Every invariant the rules name, together. -/
def Sound (s : State) : Prop :=
  CountersSaved s ∧ BuffersSound s ∧ FlagsSound s ∧ LinkRecordSound s ∧ CountersSound s ∧ HeaderMatchesPayload s

/-- A step is safe when it does not fault: it goes on, or it is a host action to which the spec gives no move. -/
def stepSafe (r : Result) : Bool :=
  match r with
  | .next _ | .refused _ => true
  | .fault _ => false

end Sys2Proof.Safety
end

