-- ==== Sys2Proof/Certificates/Slice0/Obligations.lean ====
section
/-! DEFINITION. The statements for the provers. Each docstring names the rules of spec/ its statement formalises. -/

/-! ### Words the statements share -/

namespace Sys2Proof.Spec

open Sys2Proof Sys2Proof.Machine

/-- OBUF as `t` holds it is OBUF as `s` holds it with the byte string `bs` stored from index `i`: every byte outside
reads as before. -/
def ObufStored (s t : State) (i : Nat) (bs : List Byte) : Prop :=
  ∀ a, t.byteAt .obuf a = if i ≤ a ∧ a < i + bs.length then bs.getD (a - i) 0 else s.byteAt .obuf a

/-- The opcode `op` with `ARG = 0` is the command `i`, and with any other `ARG` it is illegal, in every state, and
changes nothing but `ERR` (R71, format N). -/
def FormatN (op : Byte) (i : Instr) : Prop :=
  decode (op ++ 0#32) = .ok i ∧
  ∀ (arg : Word) (s : State), arg ≠ 0 → issue (op ++ arg) s = .next { s with err := .illegal }

/-- The opcode `op` with `ARG[31:16] = 0` is the command with `seq = ARG[15:0]`, and otherwise illegal (R71,
format S). -/
def FormatS (op : Byte) (i : Half → Instr) : Prop :=
  (∀ q : Half, decode (op ++ (0#16 ++ q)) = .ok (i q)) ∧
  ∀ (arg : Word) (s : State), arg.extractLsb' 16 16 ≠ 0 →
    issue (op ++ arg) s = .next { s with err := .illegal }

/-- A command that needs `LSTATE = IDLE` is refused with `ERR_BUSY` otherwise, and changes nothing else (R266). -/
def BusyOutsideIdle (i : Instr) : Prop :=
  ∀ s : State, s.lstate ≠ .idle → exec i s = .next { s with err := .busy }

/-- The command that stands for a link event (R152). -/
def eventInstr : LinkEvent → Instr
  | .byte b => .linkByte b
  | .timeout => .linkTimeout

/-- Link events one after the other, each as its command (R130, R150, R152). -/
def feed : List LinkEvent → State → Result
  | [], s => .next s
  | ev :: evs, s =>
    match exec (eventInstr ev) s with
    | .next t => feed evs t
    | .fault r => .fault r
    | .refused r => .refused r

/-- A change of the next state, where there is one. -/
def mapNext (f : State → State) : Result → Result
  | .next t => .next (f t)
  | .fault r => .fault r
  | .refused r => .refused r

/-- The state with another key. -/
def withKey (k : List Byte) (s : State) : State := { s with params := { s.params with key := k } }

/-- The codes each command may report (R260, R265). -/
def codes : Instr → List Err
  | .nop | .linkAbort => [.ok]
  | .wrCfg _ | .clrSticky | .crc32 | .rxStart | .sha256 | .syncBoot _ | .nvLoad => [.ok, .busy]
  | .encHdr _ | .frmEnc _ | .txStart _ => [.ok, .busy, .length]
  | .decHdr => [.ok, .busy, .short, .format]
  | .frmDec => [.ok, .busy, .short, .length, .format, .crc]
  | .linkByte _ | .linkTimeout => [.ok, .state]
  | .pktCreate _ _ _ _ => [.ok, .busy, .length, .ctr]
  | .pktParse => [.ok, .busy, .short, .format, .auth]
  | .advMsgid => [.ok, .busy, .ctr]

/-- The commands that are not refused with `ERR_BUSY` (R266). -/
def anyState : Instr → Bool
  | .nop | .linkByte _ | .linkTimeout | .linkAbort => true
  | .wrCfg _ | .clrSticky | .crc32 | .encHdr _ | .decHdr | .frmEnc _ | .frmDec | .txStart _ | .rxStart
  | .sha256 | .pktCreate _ _ _ _ | .pktParse | .advMsgid | .syncBoot _ | .nvLoad => false

/-- Where in OBUF a command stores, as (first index, number of bytes): R111, R115, R117, R162, R187, R201, R211. -/
def storedAt (i : Instr) (s : State) : Nat × Nat :=
  match i with
  | .encHdr _ => (0, 8)
  | .frmEnc _ => (0, 8 + s.ilen.toNat)
  | .frmDec => (0, (fields (s.memRead .ibuf 0 8)).length.toNat)
  | .sha256 => (0, 32)
  | .pktCreate _ _ _ _ => (0, 45 + s.ilen.toNat)
  | .pktParse => (0, ((input s).getD 4 0).toNat)
  | .linkByte _ => if s.lstate = .rxPayload then (s.byteIdx.toNat, 1) else (0, 0)
  | .nop | .wrCfg _ | .clrSticky | .crc32 | .decHdr | .txStart _ | .rxStart | .linkTimeout | .linkAbort
  | .advMsgid | .syncBoot _ | .nvLoad => (0, 0)

/-- Where the sequencer goes on a byte, from each state: the byte rows of R324's table. -/
def byteTarget (b : Byte) (s : State) : LState :=
  match s.lstate with
  | .idle => .idle
  | .rxHunt => if b = s.params.syncByte ∧ s.syncCnt = 2 then .rxWaitStart else .rxHunt
  | .rxWaitStart => if b = 0x40 then .rxHeader else if s.missCnt = 9 then .idle else .rxWaitStart
  | .rxHeader =>
    if s.byteIdx = 7 then
      let l := (fields (s.hbuf.setIfInBounds 7 b).toList).length.toNat
      if 1 ≤ l ∧ l ≤ 4096 then .rxPayload else .idle
    else .rxHeader
  | .rxPayload => if s.byteIdx.toNat + 1 = s.rlen.toNat then .idle else .rxPayload
  | .txWaitSyncAck => if b = 0x21 then .txWaitHdrAck else if s.txTries = 3 then .idle else .txWaitSyncAck
  | .txWaitHdrAck => if b = 0x21 then .txWaitPayAck else .idle
  | .txWaitPayAck => .idle

/-- Where the sequencer goes on a timeout, from each state: the timeout rows of R324's table. -/
def timeoutTarget (s : State) : LState :=
  match s.lstate with
  | .txWaitSyncAck => if s.txTries = 3 then .idle else .txWaitSyncAck
  | .idle | .rxHunt | .rxWaitStart | .rxHeader | .rxPayload | .txWaitHdrAck | .txWaitPayAck => .idle

/-- The complete transition relation of `LSTATE` (R324). -/
def nextLState (i : Instr) (s : State) : LState :=
  match i with
  | .rxStart => if s.lstate = .idle then .rxHunt else s.lstate
  | .txStart _ => if s.lstate = .idle ∧ s.ilen.toNat ≤ 4096 then .txWaitSyncAck else s.lstate
  | .linkByte b => byteTarget b s
  | .linkTimeout => timeoutTarget s
  | .linkAbort => .idle
  | .nop | .wrCfg _ | .clrSticky | .crc32 | .encHdr _ | .decHdr | .frmEnc _ | .frmDec | .sha256
  | .pktCreate _ _ _ _ | .pktParse | .advMsgid | .syncBoot _ | .nvLoad => s.lstate

/-- The values `RMSG` takes after each of some commands run one after the other. -/
def issuedIds : List Instr → State → List Word
  | [], _ => []
  | i :: is, s =>
    match exec i s with
    | .next t => t.rmsg :: issuedIds is t
    | .fault _ => []
    | .refused _ => []

/-- The code values of the fields that `STATUS` and `LSTAT` pack: the tables of R260, R33, R34 and R263. -/
def FieldCodes : Prop :=
  (Err.code .ok = 0 ∧ Err.code .illegal = 1 ∧ Err.code .busy = 2 ∧ Err.code .state = 3 ∧ Err.code .length = 4 ∧
    Err.code .short = 5 ∧ Err.code .format = 6 ∧ Err.code .crc = 7 ∧ Err.code .auth = 8 ∧ Err.code .ctr = 9) ∧
  (LState.code .idle = 0 ∧ LState.code .rxHunt = 1 ∧ LState.code .rxWaitStart = 2 ∧ LState.code .rxHeader = 3 ∧
    LState.code .rxPayload = 4 ∧ LState.code .txWaitSyncAck = 5 ∧ LState.code .txWaitHdrAck = 6 ∧
    LState.code .txWaitPayAck = 7) ∧
  (LResult.code .none = 0 ∧ LResult.code .rxOk = 1 ∧ LResult.code .rxNone = 2 ∧ LResult.code .txOk = 3 ∧
    LResult.code .txFail = 4 ∧ LResult.code .aborted = 5) ∧
  (LCause.code .none = 0 ∧ LCause.code .noData = 1 ∧ LCause.code .startTimeout = 2 ∧
    LCause.code .startNotFound = 3 ∧ LCause.code .headerShort = 4 ∧ LCause.code .oversize = 5 ∧
    LCause.code .payloadShort = 6 ∧ LCause.code .crcMismatch = 7 ∧ LCause.code .syncUnacked = 8 ∧
    LCause.code .headerUnacked = 9 ∧ LCause.code .payloadUnacked = 10 ∧ LCause.code .hostAbort = 11)

/-- What the host reads at every address of the register map but `STATUS`, `LSTAT` and the two write-only registers:
the other registers, zero-extended; the bytes of the two windows, zero-extended; 0 at a reserved address (R66). -/
def RegisterMapReads (s : State) : Prop :=
  ((hostRead s 0x0C).getLsbD 0 = s.authEn ∧ (hostRead s 0x0C).getLsbD 1 = s.authEnforce ∧
    (hostRead s 0x0C).getLsbD 2 = s.adoptLower ∧ (hostRead s 0x0C).extractLsb' 3 29 = 0) ∧
  ((hostRead s 0x10).toNat = s.ilen.toNat ∧ (hostRead s 0x14).toNat = s.olen.toNat ∧
    (hostRead s 0x18).toNat = s.rlen.toNat ∧ (hostRead s 0x1C).toNat = s.rseq.toNat ∧ hostRead s 0x20 = s.rcrc ∧
    (hostRead s 0x24).toNat = s.rdst.toNat ∧ (hostRead s 0x28).toNat = s.rsrc.toNat ∧
    (hostRead s 0x2C).toNat = s.rflg.toNat ∧ hostRead s 0x30 = s.rboot ∧ hostRead s 0x34 = s.rmsg ∧
    hostRead s 0x38 = s.bootCount ∧ hostRead s 0x3C = s.msgId ∧ hostRead s 0x44 = s.lexp ∧
    hostRead s 0x48 = s.lact) ∧
  (∀ i < 4104, (hostRead s (0x2000 + i)).toNat = (s.byteAt .ibuf i).toNat ∧
    (hostRead s (0x4000 + i)).toNat = (s.byteAt .obuf i).toNat) ∧
  (∀ a, 0x4C ≤ a → ¬ (0x2000 ≤ a ∧ a < 0x3008) → ¬ (0x4000 ≤ a ∧ a < 0x5008) → hostRead s a = 0)

/-- A host read, at any address, is a step that changes nothing (R21, R320 (d)); a host write at an address that is not
in `ARG`, `OP`, `ILEN` or the IBUF window is ignored (R66). -/
def HostAccessesChangeNothingElse (s : State) : Prop :=
  (∀ (a : Nat) (rest : List Move), s.moves = .read a :: rest → step s = .next { s with moves := rest }) ∧
  (∀ (a : Nat) (v : Word) (rest : List Move), s.moves = .write a v :: rest → a / 4 ≠ 0 → a / 4 ≠ 1 → a / 4 ≠ 4 →
    ¬ (0x2000 ≤ a ∧ a < 0x3008) → step s = .next { s with moves := rest })

/-- Writing `ARG` sets it to the value written and changes nothing else (R66). -/
def ArgWriteSetsOnlyArg (s : State) : Prop :=
  ∀ (v : Word) (rest : List Move), s.moves = .write 0x00 v :: rest →
    step s = .next { s with moves := rest, arg := v }

/-- Host writes of successive bytes to the IBUF window from index `i`. -/
def writeBytes : Nat → List Byte → State → Result
  | _, [], s => .next s
  | i, b :: bs, s =>
    match hostWrite (0x2000 + i) (b.setWidth 32) s with
    | .next t => writeBytes (i + 1) bs t
    | .fault r => .fault r
    | .refused r => .refused r

end Sys2Proof.Spec

open Sys2Proof Sys2Proof.Machine Sys2Proof.Spec Sys2Proof.Safety

/-! ### Encoding -/

/-- Decode after encode is the identity on every command, with every operand at every value (R70 to R73). -/
def Obligations.DecodeOfEncode : Prop := ∀ i : Instr, decode (encode i) = .ok i

/-- Each word has one meaning: a word that decodes is the encoding of what it decodes to, so no bit of a legal word
is dropped (R70 to R74). -/
def Obligations.EncodeOfDecode : Prop :=
  ∀ (w : CmdWord) (i : Instr), decode w = .ok i → encode i = w

/-- A word is a command exactly when it selects a row of the opcode table, that row is the only one it selects, and
its mnemonic is the command's (R73, R321). -/
def Obligations.DecodeAcceptsExactlyTheTableRows : Prop :=
  (∀ w : CmdWord, (∃ i, decode w = .ok i) ↔ ∃ r ∈ opcodeTable, r.selects w = true) ∧
  (∀ (w : CmdWord) (i : Instr), decode w = .ok i →
    ∀ r ∈ opcodeTable, r.selects w = true → r.mnemonic = i.mnemonic) ∧
  (∀ w : CmdWord, ∀ r ∈ opcodeTable, ∀ q ∈ opcodeTable, r.selects w = true → q.selects w = true → r = q)

/-- Words written out from the encodings of R71 and R73, one of each format and the extremes of the operands. -/
def Obligations.WordsOfEachFormatDecode : Prop :=
  decode 0x0000000000 = .ok .nop ∧ decode 0x0100000005 = .ok (.wrCfg 5) ∧
  decode 0x2800000021 = .ok (.linkByte 0x21) ∧ decode 0x100000FFFF = .ok (.encHdr 0xFFFF) ∧
  decode 0x61000001DA = .ok (.syncBoot 474) ∧ decode 0x5001020304 = .ok (.pktCreate 1 2 3 4) ∧
  decode 0x6200000000 = .ok .nvLoad

/-- R261: an illegal word writes `ERR_ILLEGAL` and nothing else, in every `LSTATE`; and so does a write to `OP` with a
bit set in [31:8]. -/
def Obligations.IllegalWordWritesOnlyErr : Prop :=
  (∀ (w : CmdWord) (s : State), (∀ r ∈ opcodeTable, r.selects w = false) →
    issue w s = .next { s with err := .illegal }) ∧
  (∀ (v : Word) (s : State), v.extractLsb' 8 24 ≠ 0 →
    hostWrite 0x04 v s = .next { s with err := .illegal })

/-! ### The step -/

/-- A step runs the decoded command: a word that the host presents, a command issued by writing `OP`, a byte or a
timeout that the channel presents, and a word placed by `withFetchWord`; the move is taken from the order of moves and
nothing else is added (R59, R66, R67, R320, R321). In `IDLE`, and with no byte received, the channel presents nothing,
and a byte stays where it is (R67, R153); a byte that arrives joins RXIN after those already there and changes nothing
else (R60, R67); with no move pending the block waits and nothing changes (R292). That the moves stand in a list, that a
step takes the first and that an empty list waits is the model's (log entry 1), RXIN as a field and the channel's turn
in `IDLE` too (log entry 9), and so is that a `LINK_BYTE` issued by the host leaves RXIN as it is (log entry 18). -/
def Obligations.StepRunsTheDecodedCommand : Prop :=
  (∀ (s : State) (w : CmdWord) (i : Instr) (rest : List Move), s.moves = .cmd w :: rest →
    decode w = .ok i → step s = exec i { s with moves := rest }) ∧
  (∀ (s : State) (v : Word) (i : Instr) (rest : List Move), s.moves = .write 0x04 v :: rest →
    v.extractLsb' 8 24 = 0 → decode (v.extractLsb' 0 8 ++ s.arg) = .ok i →
    step s = exec i { s with moves := rest }) ∧
  (∀ (s : State) (b : Byte) (bs : List Byte) (rest : List Move), s.moves = .deliver :: rest →
    s.lstate ≠ .idle → s.rxin = b :: bs →
    step s = exec (.linkByte b) { s with moves := rest, rxin := bs }) ∧
  (∀ (s : State) (rest : List Move), s.moves = .timeout :: rest → s.lstate ≠ .idle →
    step s = exec .linkTimeout { s with moves := rest }) ∧
  (∀ (s : State) (rest : List Move),
    (s.moves = .deliver :: rest ∧ (s.lstate = .idle ∨ s.rxin = [])) ∨
      (s.moves = .timeout :: rest ∧ s.lstate = .idle) →
    step s = .next { s with moves := rest }) ∧
  (∀ (s : State) (b : Byte) (rest : List Move), s.moves = .arrive b :: rest →
    step s = .next { s with moves := rest, rxin := s.rxin ++ [b] }) ∧
  (∀ s : State, s.moves = [] → step s = .next s) ∧
  (∀ (s : State) (w : CmdWord) (i : Instr), decode w = .ok i →
    step (s.withFetchWord 40 w.toNat) = exec i s)

/-! ### System commands -/

/-- R250: `NOP` changes nothing but `ERR <- OK`, in every `LSTATE`; the word is all zeros and any other `ARG` is
illegal. -/
def Obligations.NopOnlyClearsErr : Prop :=
  FormatN 0x00 .nop ∧ ∀ s : State, exec .nop s = .next { s with err := .ok }

/-- R251: `WR_CFG cfg` writes the three bits of `CFG`; a reserved bit is illegal, an active link refuses. -/
def Obligations.WrCfgWritesTheThreeBits : Prop :=
  (∀ c : BitVec 3, decode (0x01#8 ++ (0#29 ++ c)) = .ok (.wrCfg c)) ∧
  (∀ (arg : Word) (s : State), arg.extractLsb' 3 29 ≠ 0 →
    issue (0x01#8 ++ arg) s = .next { s with err := .illegal }) ∧
  (∀ c : BitVec 3, BusyOutsideIdle (.wrCfg c)) ∧
  (∀ (c : BitVec 3) (s : State), s.lstate = .idle → ∃ t : State, exec (.wrCfg c) s = .next t ∧
    t = { s with cfg := t.cfg, err := .ok } ∧
    t.authEn = c.getLsbD 0 ∧ t.authEnforce = c.getLsbD 1 ∧ t.adoptLower = c.getLsbD 2)

/-- R252: `CLR_STICKY` clears `BOOT_ANOMALY` and nothing else. -/
def Obligations.ClrStickyClearsOnlyBootAnomaly : Prop :=
  FormatN 0x02 .clrSticky ∧ BusyOutsideIdle .clrSticky ∧
  ∀ s : State, s.lstate = .idle → exec .clrSticky s = .next { s with bootAnomaly := false, err := .ok }

/-! ### CRC32 and the frame codec -/

/-- R101: `CRC32` writes `RCRC` and `ERR` only, for every `ILEN` from 0 to 4104; the empty input gives 0. -/
def Obligations.Crc32WritesOnlyRcrc : Prop :=
  FormatN 0x08 .crc32 ∧ BusyOutsideIdle .crc32 ∧
  (∀ s : State, s.lstate = .idle → s.ilen.toNat ≤ 4104 →
    exec .crc32 s = .next { s with rcrc := Config.crc32 (s.memRead .ibuf 0 s.ilen.toNat), err := .ok }) ∧
  (∀ s : State, s.lstate = .idle → s.ilen = 0 → exec .crc32 s = .next { s with rcrc := 0, err := .ok })

/-- Every change of a single byte of a message changes its CRC32: a consequence of R100's definition (each inner step
can be undone), used by the examples of `ERR_CRC`. -/
def Obligations.Crc32DetectsAnyChangedByte : Prop :=
  ∀ (p q : List Byte) (x y : Byte), x ≠ y →
    Config.crc32 (p ++ [x] ++ q) ≠ Config.crc32 (p ++ [y] ++ q)

/-- R78 and R110: the bytes of a frame header, little-endian, at their offsets, and taking a built header apart
gives the length, the sequence number and the CRC32 back, the empty payload included. The empty payload is R110's
own inference "It also holds for `len(p) = 0`". -/
def Obligations.FrameHeaderLayoutAndRoundTrip : Prop :=
  ∀ (p : List Byte) (q : Half), p.length ≤ 4096 →
    hdr p q =
      [BitVec.ofNat 8 (p.length % 256), BitVec.ofNat 8 (p.length / 256),
       BitVec.ofNat 8 (q.toNat % 256), BitVec.ofNat 8 (q.toNat / 256),
       BitVec.ofNat 8 ((Config.crc32 p).toNat % 256), BitVec.ofNat 8 ((Config.crc32 p).toNat / 256 % 256),
       BitVec.ofNat 8 ((Config.crc32 p).toNat / 65536 % 256),
       BitVec.ofNat 8 ((Config.crc32 p).toNat / 16777216)] ∧
    (fields (hdr p q)).length.toNat = p.length ∧ (fields (hdr p q)).sequence = q ∧
    (fields (hdr p q)).crc = Config.crc32 p

/-- R111: `ENC_HDR seq`, whole: the encoding, the errors in their order, the header in `OBUF[0..8)`, the result
registers, and nothing else. -/
def Obligations.EncHdrBuildsTheHeader : Prop :=
  FormatS 0x10 .encHdr ∧ (∀ q, BusyOutsideIdle (.encHdr q)) ∧
  (∀ (q : Half) (s : State), s.lstate = .idle → s.ilen.toNat > 4096 →
    exec (.encHdr q) s = .next { s with err := .length }) ∧
  (∀ (q : Half) (s : State), s.lstate = .idle → s.ilen.toNat ≤ 4096 →
    ∃ t : State, exec (.encHdr q) s = .next t ∧
      t = { s with obuf := t.obuf, olen := 8, rlen := s.ilen, rseq := q,
                   rcrc := Config.crc32 (input s), err := .ok } ∧
      ObufStored s t 0 (hdr (input s) q))

/-- R113 and R114: `DEC_HDR` takes exactly eight bytes apart, with no range check, and refuses any other number. -/
def Obligations.DecHdrTakesExactlyEightBytes : Prop :=
  FormatN 0x11 .decHdr ∧ BusyOutsideIdle .decHdr ∧
  (∀ s : State, s.lstate = .idle → s.ilen.toNat < 8 → exec .decHdr s = .next { s with err := .short }) ∧
  (∀ s : State, s.lstate = .idle → 8 < s.ilen.toNat → exec .decHdr s = .next { s with err := .format }) ∧
  (∀ s : State, s.lstate = .idle → s.ilen.toNat = 8 → ∃ t : State, exec .decHdr s = .next t ∧
    t = { s with rlen := t.rlen, rseq := t.rseq, rcrc := t.rcrc, err := .ok } ∧
    t.rlen.toNat = (s.byteAt .ibuf 0).toNat + 256 * (s.byteAt .ibuf 1).toNat ∧
    t.rseq.toNat = (s.byteAt .ibuf 2).toNat + 256 * (s.byteAt .ibuf 3).toNat ∧
    t.rcrc.toNat = (s.byteAt .ibuf 4).toNat + 256 * (s.byteAt .ibuf 5).toNat
      + 65536 * (s.byteAt .ibuf 6).toNat + 16777216 * (s.byteAt .ibuf 7).toNat)

/-- R115: `FRM_ENC seq`, whole: header and payload to OBUF. -/
def Obligations.FrmEncBuildsTheFrame : Prop :=
  FormatS 0x12 .frmEnc ∧ (∀ q, BusyOutsideIdle (.frmEnc q)) ∧
  (∀ (q : Half) (s : State), s.lstate = .idle → s.ilen.toNat > 4096 →
    exec (.frmEnc q) s = .next { s with err := .length }) ∧
  (∀ (q : Half) (s : State), s.lstate = .idle → s.ilen.toNat ≤ 4096 →
    ∃ t : State, exec (.frmEnc q) s = .next t ∧
      t = { s with obuf := t.obuf, olen := t.olen, rlen := s.ilen, rseq := q,
                   rcrc := Config.crc32 (input s), err := .ok } ∧
      t.olen.toNat = 8 + s.ilen.toNat ∧
      ObufStored s t 0 (hdr (input s) q ++ input s))

/-- R117: `FRM_DEC`, whole: its five checks in their order, each reported with nothing else changed, and on success
the payload delivered. -/
def Obligations.FrmDecValidatesInOrder : Prop :=
  FormatN 0x13 .frmDec ∧ BusyOutsideIdle .frmDec ∧
  (∀ s : State, s.lstate = .idle → s.ilen.toNat < 8 → exec .frmDec s = .next { s with err := .short }) ∧
  (∀ s : State, ∀ f : HdrFields, s.lstate = .idle → 8 ≤ s.ilen.toNat → f = fields (s.memRead .ibuf 0 8) →
    (4096 < f.length.toNat → exec .frmDec s = .next { s with err := .length }) ∧
    (f.length.toNat ≤ 4096 → s.ilen.toNat < 8 + f.length.toNat →
      exec .frmDec s = .next { s with err := .short }) ∧
    (f.length.toNat ≤ 4096 → 8 + f.length.toNat < s.ilen.toNat →
      exec .frmDec s = .next { s with err := .format }) ∧
    (f.length.toNat ≤ 4096 → s.ilen.toNat = 8 + f.length.toNat →
      Config.crc32 (s.memRead .ibuf 8 f.length.toNat) ≠ f.crc →
      exec .frmDec s = .next { s with err := .crc }) ∧
    (f.length.toNat ≤ 4096 → s.ilen.toNat = 8 + f.length.toNat →
      Config.crc32 (s.memRead .ibuf 8 f.length.toNat) = f.crc →
      ∃ t : State, exec .frmDec s = .next t ∧
        t = { s with obuf := t.obuf, olen := f.length, rlen := f.length, rseq := f.sequence, rcrc := f.crc,
                     err := .ok } ∧
        ObufStored s t 0 (s.memRead .ibuf 8 f.length.toNat)))

/-- R116: for every payload of at most 4096 bytes and every sequence number, building a frame, loading it back and
validating it succeeds and returns the payload, the sequence number and the CRC32. The spec marks R116 as derived
from R115 and R117. -/
def Obligations.FrameRoundTrip : Prop :=
  ∀ (s : State) (p : List Byte) (q : Half), s.lstate = .idle → p.length ≤ 4096 →
    ∃ a b c d : State,
      hostLoad p s = .next a ∧ exec (.frmEnc q) a = .next b ∧
      hostLoad (b.memRead .obuf 0 b.olen.toNat) b = .next c ∧ exec .frmDec c = .next d ∧
      b.err = .ok ∧ d.err = .ok ∧ d.memRead .obuf 0 d.olen.toNat = p ∧ d.olen.toNat = p.length ∧
      d.rseq = q ∧ d.rcrc = Config.crc32 p

/-! ### The transmit sequencer -/

/-- R131: `TX_START seq`, whole: the errors in their order, and on success the link record cleared, the header latched,
the sync run emitted, the result registers written, and nothing else. -/
def Obligations.TxStartLatchesAndSendsSync : Prop :=
  FormatS 0x20 .txStart ∧ (∀ q, BusyOutsideIdle (.txStart q)) ∧
  (∀ (q : Half) (s : State), s.lstate = .idle → s.ilen.toNat > 4096 →
    exec (.txStart q) s = .next { s with err := .length }) ∧
  (∀ (q : Half) (s : State), s.lstate = .idle → s.ilen.toNat ≤ 4096 →
    ∃ t : State, exec (.txStart q) s = .next t ∧
      t = { s with lresult := .none, lcause := .none, lexp := 0, lact := 0, syncCnt := 0, missCnt := 0,
                   byteIdx := 0, hbuf := t.hbuf, rlen := s.ilen, rseq := q, rcrc := Config.crc32 (input s),
                   txTries := 1, txout := s.txout ++ List.replicate 3 s.params.syncByte,
                   lstate := .txWaitSyncAck, err := .ok } ∧
      t.hbuf.toList = hdr (input s) q)

/-- R132 and R135: every row of the table of the transmit states, for the acknowledgement byte, any other byte and the
timeout, with everything each row leaves unchanged. -/
def Obligations.TransmitTransitionTable : Prop :=
  (∀ s : State, s.lstate = .txWaitSyncAck →
    exec (.linkByte 0x21) s =
      .next { s with txout := s.txout ++ (0x40 :: s.hbuf.toList), lstate := .txWaitHdrAck, err := .ok }) ∧
  (∀ (s : State) (ev : LinkEvent), ev ≠ .byte 0x21 → s.lstate = .txWaitSyncAck → s.txTries.toNat < 3 →
    exec (eventInstr ev) s =
      .next { s with txTries := s.txTries + 1, txout := s.txout ++ List.replicate 3 s.params.syncByte,
                     err := .ok }) ∧
  (∀ (s : State) (ev : LinkEvent), ev ≠ .byte 0x21 → s.lstate = .txWaitSyncAck → s.txTries.toNat = 3 →
    exec (eventInstr ev) s =
      .next { s with lstate := .idle, lresult := .txFail, lcause := .syncUnacked, lexp := 3, lact := 3,
                     err := .ok }) ∧
  (∀ s : State, s.lstate = .txWaitHdrAck → s.ilen.toNat ≤ 4104 →
    exec (.linkByte 0x21) s =
      .next { s with txout := s.txout ++ input s, lstate := .txWaitPayAck, err := .ok }) ∧
  (∀ (s : State) (ev : LinkEvent), ev ≠ .byte 0x21 → s.lstate = .txWaitHdrAck →
    exec (eventInstr ev) s =
      .next { s with lstate := .idle, lresult := .txFail, lcause := .headerUnacked, lexp := 0, lact := 0,
                     err := .ok }) ∧
  (∀ s : State, s.lstate = .txWaitPayAck →
    exec (.linkByte 0x21) s =
      .next { s with lstate := .idle, lresult := .txOk, lcause := .none, lexp := 0, lact := 0, err := .ok }) ∧
  (∀ (s : State) (ev : LinkEvent), ev ≠ .byte 0x21 → s.lstate = .txWaitPayAck →
    exec (eventInstr ev) s =
      .next { s with lstate := .idle, lresult := .txFail, lcause := .payloadUnacked, lexp := 0, lact := 0,
                     err := .ok })

/-- R140: a transmission acknowledged three times emits the sync run, the start marker, the header and the payload,
and ends in `TX_OK`. The spec marks R140 as derived from R131 and R135. -/
def Obligations.CleanTransmissionEmitsTheWireFrame : Prop :=
  ∀ (s : State) (q : Half), s.lstate = .idle → s.ilen.toNat ≤ 4096 →
    ∃ a t : State, exec (.txStart q) s = .next a ∧
      feed [.byte 0x21, .byte 0x21, .byte 0x21] a = .next t ∧
      t.txout = s.txout ++ (List.replicate 3 s.params.syncByte ++ [0x40] ++ hdr (input s) q ++ input s) ∧
      t.lstate = .idle ∧ t.lresult = .txOk ∧ t.lcause = .none ∧ t.txTries = 1 ∧
      t.obuf = s.obuf ∧ t.olen = s.olen

/-- R139: whatever the channel delivers, a `TX_START` is back in `IDLE` after at most five link events, with `TX_OK`
or `TX_FAIL`. The spec marks R139 as derived from R135. -/
def Obligations.TransmissionEndsWithinFiveEvents : Prop :=
  ∀ (s : State) (q : Half) (evs : List LinkEvent), s.lstate = .idle → s.ilen.toNat ≤ 4096 → evs.length = 5 →
    ∃ a : State, exec (.txStart q) s = .next a ∧
      ∃ k ≤ 5, ∃ t : State, feed (evs.take k) a = .next t ∧ t.lstate = .idle ∧
        (t.lresult = .txOk ∨ t.lresult = .txFail)

/-! ### The receive parser -/

/-- R151: `RX_START`, whole: the link record and `OLEN` cleared, nothing emitted, nothing else changed. -/
def Obligations.RxStartClearsAndHunts : Prop :=
  FormatN 0x21 .rxStart ∧ BusyOutsideIdle .rxStart ∧
  ∀ s : State, s.lstate = .idle →
    exec .rxStart s =
      .next { s with lresult := .none, lcause := .none, lexp := 0, lact := 0, syncCnt := 0, missCnt := 0,
                     txTries := 0, byteIdx := 0, olen := 0, lstate := .rxHunt, err := .ok }

/-- R153 and R267: a link event in `IDLE` is refused with `ERR_STATE` and changes nothing else. -/
def Obligations.LinkEventInIdleIsRefused : Prop :=
  ∀ (s : State) (ev : LinkEvent), s.lstate = .idle →
    exec (eventInstr ev) s = .next { s with err := .state }

/-- R156: `RX_HUNT`, whole: the third consecutive sync byte is acknowledged, any other byte breaks the run, the
timeout ends the hunt with `NO_DATA`. -/
def Obligations.HuntFindsThreeSyncBytes : Prop :=
  ∀ s : State, s.lstate = .rxHunt → s.syncCnt.toNat < 3 →
    (s.syncCnt.toNat = 2 → exec (.linkByte s.params.syncByte) s =
      .next { s with syncCnt := 3, missCnt := 0, lstate := .rxWaitStart, txout := s.txout ++ [0x21],
                     err := .ok }) ∧
    (s.syncCnt.toNat < 2 → exec (.linkByte s.params.syncByte) s =
      .next { s with syncCnt := s.syncCnt + 1, err := .ok }) ∧
    (∀ b, b ≠ s.params.syncByte → exec (.linkByte b) s = .next { s with syncCnt := 0, err := .ok }) ∧
    exec .linkTimeout s =
      .next { s with lstate := .idle, lresult := .rxNone, lcause := .noData, lexp := 0, lact := 0, err := .ok }

/-- R158: `RX_WAIT_START`, whole: the start marker first, whatever `SYNC_BYTE` is; the tenth other byte, or a timeout,
ends the attempt. -/
def Obligations.WaitStartGivesUpAfterTen : Prop :=
  ∀ s : State, s.lstate = .rxWaitStart → s.missCnt.toNat < 10 →
    exec (.linkByte 0x40) s = .next { s with byteIdx := 0, lstate := .rxHeader, err := .ok } ∧
    (∀ b : Byte, b ≠ 0x40 → s.missCnt.toNat < 9 →
      exec (.linkByte b) s = .next { s with missCnt := s.missCnt + 1, err := .ok }) ∧
    (∀ b : Byte, b ≠ 0x40 → s.missCnt.toNat = 9 →
      exec (.linkByte b) s =
        .next { s with missCnt := 10, lstate := .idle, lresult := .rxNone, lcause := .startNotFound,
                       lexp := 1, lact := 10, err := .ok }) ∧
    exec .linkTimeout s =
      .next { s with lstate := .idle, lresult := .rxNone, lcause := .startTimeout, lexp := 1, lact := 0,
                     err := .ok }

/-- R160 and R161: `RX_HEADER`, whole: the byte is stored; the eighth decodes the header, refuses an oversized length
unacknowledged, acknowledges any other, and finishes at once when there is no payload. -/
def Obligations.HeaderIsCheckedThenAcknowledged : Prop :=
  ∀ (s : State) (b : Byte) (h : Vector Byte 8) (f : HdrFields), s.lstate = .rxHeader → s.byteIdx.toNat < 8 →
    h = s.hbuf.setIfInBounds s.byteIdx.toNat b → f = fields h.toList →
    (s.byteIdx.toNat < 7 →
      exec (.linkByte b) s = .next { s with hbuf := h, byteIdx := s.byteIdx + 1, err := .ok }) ∧
    (s.byteIdx.toNat = 7 → 4096 < f.length.toNat →
      exec (.linkByte b) s =
        .next { s with hbuf := h, byteIdx := 8, rlen := f.length, rseq := f.sequence, rcrc := f.crc,
                       lstate := .idle, lresult := .rxNone, lcause := .oversize, lexp := 4096,
                       lact := f.length.setWidth 32, err := .ok }) ∧
    (s.byteIdx.toNat = 7 → f.length = 0 → f.crc = 0 →
      exec (.linkByte b) s =
        .next { s with hbuf := h, byteIdx := 0, rlen := 0, rseq := f.sequence, rcrc := 0, olen := 0,
                       txout := s.txout ++ [0x21, 0x21], lstate := .idle, lresult := .rxOk, lcause := .none,
                       lexp := 0, lact := 0, err := .ok }) ∧
    (s.byteIdx.toNat = 7 → f.length = 0 → f.crc ≠ 0 →
      exec (.linkByte b) s =
        .next { s with hbuf := h, byteIdx := 0, rlen := 0, rseq := f.sequence, rcrc := f.crc,
                       txout := s.txout ++ [0x21], lstate := .idle, lresult := .rxNone,
                       lcause := .crcMismatch, lexp := f.crc, lact := 0, err := .ok }) ∧
    (s.byteIdx.toNat = 7 → 1 ≤ f.length.toNat → f.length.toNat ≤ 4096 →
      exec (.linkByte b) s =
        .next { s with hbuf := h, byteIdx := 0, rlen := f.length, rseq := f.sequence, rcrc := f.crc,
                       txout := s.txout ++ [0x21], lstate := .rxPayload, err := .ok }) ∧
    exec .linkTimeout s =
      .next { s with lstate := .idle, lresult := .rxNone, lcause := .headerShort, lexp := 8,
                     lact := s.byteIdx.setWidth 32, err := .ok }

/-- R162 and R163: `RX_PAYLOAD`, whole: the byte goes to `OBUF[BYTE_IDX]`; the last one is followed by the CRC check,
and only a match is acknowledged and delivered. -/
def Obligations.PayloadIsStoredThenVerified : Prop :=
  ∀ (s : State) (b : Byte) (c : Word), s.lstate = .rxPayload → s.rlen.toNat ≤ 4096 →
    s.byteIdx.toNat < s.rlen.toNat → c = Config.crc32 (s.memRead .obuf 0 s.byteIdx.toNat ++ [b]) →
    (s.byteIdx.toNat + 1 < s.rlen.toNat → ∃ t : State, exec (.linkByte b) s = .next t ∧
      t = { s with obuf := t.obuf, byteIdx := s.byteIdx + 1, err := .ok } ∧
      ObufStored s t s.byteIdx.toNat [b]) ∧
    (s.byteIdx.toNat + 1 = s.rlen.toNat → c = s.rcrc → ∃ t : State, exec (.linkByte b) s = .next t ∧
      t = { s with obuf := t.obuf, byteIdx := s.byteIdx + 1, olen := s.rlen, txout := s.txout ++ [0x21],
                   lstate := .idle, lresult := .rxOk, lcause := .none, lexp := 0, lact := 0, err := .ok } ∧
      ObufStored s t s.byteIdx.toNat [b]) ∧
    (s.byteIdx.toNat + 1 = s.rlen.toNat → c ≠ s.rcrc → ∃ t : State, exec (.linkByte b) s = .next t ∧
      t = { s with obuf := t.obuf, byteIdx := s.byteIdx + 1, lstate := .idle, lresult := .rxNone,
                   lcause := .crcMismatch, lexp := s.rcrc, lact := c, err := .ok } ∧
      ObufStored s t s.byteIdx.toNat [b]) ∧
    exec .linkTimeout s =
      .next { s with lstate := .idle, lresult := .rxNone, lcause := .payloadShort,
                     lexp := s.rlen.setWidth 32, lact := s.byteIdx.setWidth 32, err := .ok }

/-- R166: `LINK_ABORT`, whole: it ends any activity without emitting, and is a no-op in `IDLE`. -/
def Obligations.LinkAbortEndsAnyActivity : Prop :=
  FormatN 0x2A .linkAbort ∧
  (∀ s : State, s.lstate ≠ .idle → exec .linkAbort s =
    .next { s with lstate := .idle, lresult := .aborted, lcause := .hostAbort, lexp := 0, lact := 0,
                   err := .ok }) ∧
  (∀ s : State, s.lstate = .idle → exec .linkAbort s = .next { s with err := .ok })

/-- The receive parser accepts the wire frame of R80 for every payload of at most 4096 bytes, every sequence number
and every value of `SYNC_BYTE`, 0x40 among them: it delivers the payload and the sequence number and emits three
acknowledgements (R150, R156 to R164). This follows from those rules; no rule says it in one sentence. -/
def Obligations.CleanReceptionDeliversThePayload : Prop :=
  ∀ (s : State) (p : List Byte) (q : Half), s.lstate = .idle → p.length ≤ 4096 →
    ∃ a t : State, exec .rxStart s = .next a ∧
      feed ((List.replicate 3 s.params.syncByte ++ [0x40] ++ hdr p q ++ p).map .byte) a = .next t ∧
      t.lstate = .idle ∧ t.lresult = .rxOk ∧ t.lcause = .none ∧ t.olen.toNat = p.length ∧
      t.memRead .obuf 0 t.olen.toNat = p ∧ t.rseq = q ∧ t.rcrc = Config.crc32 p ∧
      t.txout = s.txout ++ [0x21, 0x21, 0x21]

/-- R164: whatever the channel delivers after an `RX_START`, the block emits nothing but 0x21, at most three times,
and it never faults. The spec marks R164 as derived; that there is no fault is the model's (log entry 5). -/
def Obligations.ReceptionEmitsAtMostThreeAcks : Prop :=
  ∀ (s : State) (evs : List LinkEvent), s.lstate = .idle →
    ∃ a t : State, exec .rxStart s = .next a ∧ feed evs a = .next t ∧
      ∃ k ≤ 3, t.txout = s.txout ++ List.replicate k 0x21

/-! ### SHA-256, HMAC and the comparison of tags -/

/-- R187: `SHA256`, whole: the digest in `OBUF[0..32)`, `OLEN = 32`, for every `ILEN` from 0 to 4104. -/
def Obligations.Sha256StoresTheDigest : Prop :=
  FormatN 0x40 .sha256 ∧ BusyOutsideIdle .sha256 ∧
  ∀ s : State, s.lstate = .idle → s.ilen.toNat ≤ 4104 →
    ∃ t : State, exec .sha256 s = .next t ∧
      t = { s with obuf := t.obuf, olen := 32, err := .ok } ∧
      (Config.sha256 (input s)).length = 32 ∧ ObufStored s t 0 (Config.sha256 (input s))

/-- R181: the padding: the message, 0x80, the least number of zeros that brings the length to 56 modulo 64, and the bit
length as a big-endian 64-bit number; its length is a multiple of 64 and at least 64. -/
def Obligations.ShaPaddingShape : Prop :=
  ∀ m : List Byte, ∃ z : Nat,
    Config.shaPad m = m ++ [0x80] ++ List.replicate z 0x00 ++ be64 (BitVec.ofNat 64 (8 * m.length)) ∧
    (m.length + 1 + z) % 64 = 56 ∧ (∀ y < z, (m.length + 1 + y) % 64 ≠ 56) ∧
    (Config.shaPad m).length % 64 = 0 ∧ 64 ≤ (Config.shaPad m).length

/-- R185: the HMAC of every key: the key block is the key padded with zeros to 64 bytes, hashed first when it is longer
than 64 bytes, and the tag is the nested hash, 32 bytes long. -/
def Obligations.HmacIsTheNestedHash : Prop :=
  ∀ k m k0 : List Byte, k0 = (if k.length > 64 then Config.sha256 k else k) →
    k0.length ≤ 64 ∧
    Config.hmacSha256 k m =
      Config.sha256 ((k0 ++ List.replicate (64 - k0.length) 0x00).map (· ^^^ 0x5C) ++
        Config.sha256 ((k0 ++ List.replicate (64 - k0.length) 0x00).map (· ^^^ 0x36) ++ m)) ∧
    (Config.hmacSha256 k m).length = 32

/-- R186: "As a function `ct_eq(a, b)` is exactly `a = b`". -/
def Obligations.ConstantTimeCompareIsEquality : Prop :=
  ∀ a b : List Byte, Config.ctEq a b = true ↔ a = b

/-! ### The packet codec -/

/-- R84 and R85: the bytes of a packet at their offsets, for every data of at most 210 bytes: header, data, footer, and
the tag over everything before it. -/
def Obligations.PacketLayout : Prop :=
  ∀ (key data : List Byte) (dst src flags seq : Byte) (boot msg : Word) (p : List Byte),
    data.length ≤ 210 → p = packet key dst src flags seq data boot msg →
    p.length = 45 + data.length ∧ p.length ≤ 255 ∧
    slice p 0 5 = [dst, src, flags, seq, BitVec.ofNat 8 data.length] ∧
    slice p 5 (5 + data.length) = data ∧
    fromLe (slice p (5 + data.length) (9 + data.length)) = boot.toNat ∧
    fromLe (slice p (9 + data.length) (13 + data.length)) = msg.toNat ∧
    slice p (13 + data.length) (45 + data.length) =
      Config.hmacSha256 key (slice p 0 (13 + data.length))

/-- R201 to R204 and R206: `PKT_CREATE`, whole: the errors in their order with no `msg_id` consumed, and on success the
counter and its NV word advanced, the packet in OBUF and the footer's values in `RBOOT`, `RMSG`. -/
def Obligations.PktCreateBuildsThePacket : Prop :=
  (∀ d r f q : Byte, decode (0x50#8 ++ (d ++ r ++ f ++ q)) = .ok (.pktCreate d r f q)) ∧
  (∀ d r f q, BusyOutsideIdle (.pktCreate d r f q)) ∧
  (∀ (d r f q : Byte) (s : State), s.lstate = .idle → 210 < s.ilen.toNat →
    exec (.pktCreate d r f q) s = .next { s with err := .length }) ∧
  (∀ (d r f q : Byte) (s : State), s.lstate = .idle → s.ilen.toNat ≤ 210 → s.msgId = 0xFFFFFFFF →
    exec (.pktCreate d r f q) s = .next { s with err := .ctr }) ∧
  (∀ (d r f q : Byte) (s : State), s.lstate = .idle → s.ilen.toNat ≤ 210 → s.msgId ≠ 0xFFFFFFFF →
    ∃ t : State, exec (.pktCreate d r f q) s = .next t ∧
      t = { s with msgId := s.msgId + 1, nvMsg := s.msgId + 1, obuf := t.obuf, olen := t.olen,
                   rboot := s.bootCount, rmsg := s.msgId + 1, err := .ok } ∧
      t.olen.toNat = 45 + s.ilen.toNat ∧ t.msgId.toNat = s.msgId.toNat + 1 ∧
      ObufStored s t 0 (packet s.params.key d r f q (input s) s.bootCount (s.msgId + 1)))

/-- The errors of `PKT_PARSE` in their order (R211 to R215, R270): each leaves everything as it was but `ERR` and the
three flags, which are cleared. -/
def Obligations.PktParseErrorsInOrder : Prop :=
  FormatN 0x51 .pktParse ∧ BusyOutsideIdle .pktParse ∧
  ∀ (s c : State) (p : List Byte) (n l : Nat), s.lstate = .idle →
    c = { s with authOk := false, authWarn := false, footerValid := false } →
    p = input s → n = s.ilen.toNat → l = (p.getD 4 0).toNat →
    (n < 5 → exec .pktParse s = .next { c with err := .short }) ∧
    (5 ≤ n → s.authEn = true → n < 45 + l → exec .pktParse s = .next { c with err := .short }) ∧
    (5 ≤ n → s.authEn = true → 45 + l < n → exec .pktParse s = .next { c with err := .format }) ∧
    (s.authEn = true → n = 45 + l →
      slice p (n - 32) n ≠ Config.hmacSha256 s.params.key (slice p 0 (n - 32)) → s.authEnforce = true →
      exec .pktParse s = .next { c with err := .auth }) ∧
    (5 ≤ n → s.authEn = false → n < 5 + l → exec .pktParse s = .next { c with err := .short })

/-- What a `PKT_PARSE` that succeeds delivers (R211, R213 to R215, R31): with equal tags everything with the footer;
under the warn policy with different tags, and with authentication disabled, header and data alone. -/
def Obligations.PktParseDelivers : Prop :=
  ∀ (s : State) (p : List Byte) (n l : Nat), s.lstate = .idle → p = input s → n = s.ilen.toNat →
    l = (p.getD 4 0).toNat →
    (s.authEn = true → n = 45 + l →
      slice p (n - 32) n = Config.hmacSha256 s.params.key (slice p 0 (n - 32)) →
      ∃ t : State, exec .pktParse s = .next t ∧
        t = { s with rdst := p.getD 0 0, rsrc := p.getD 1 0, rflg := p.getD 2 0,
                     rseq := (p.getD 3 0).setWidth 16, rlen := BitVec.ofNat 16 l, obuf := t.obuf,
                     olen := BitVec.ofNat 16 l, authOk := true, authWarn := false, footerValid := true,
                     rboot := t.rboot, rmsg := t.rmsg, err := .ok } ∧
        t.rboot.toNat = fromLe (slice p (5 + l) (9 + l)) ∧ t.rmsg.toNat = fromLe (slice p (9 + l) (13 + l)) ∧
        ObufStored s t 0 (slice p 5 (5 + l))) ∧
    (s.authEn = true → n = 45 + l →
      slice p (n - 32) n ≠ Config.hmacSha256 s.params.key (slice p 0 (n - 32)) → s.authEnforce = false →
      ∃ t : State, exec .pktParse s = .next t ∧
        t = { s with rdst := p.getD 0 0, rsrc := p.getD 1 0, rflg := p.getD 2 0,
                     rseq := (p.getD 3 0).setWidth 16, rlen := BitVec.ofNat 16 l, obuf := t.obuf,
                     olen := BitVec.ofNat 16 l, authOk := false, authWarn := true, footerValid := false,
                     rboot := 0, rmsg := 0, err := .ok } ∧
        ObufStored s t 0 (slice p 5 (5 + l))) ∧
    (s.authEn = false → 5 + l ≤ n →
      ∃ t : State, exec .pktParse s = .next t ∧
        t = { s with rdst := p.getD 0 0, rsrc := p.getD 1 0, rflg := p.getD 2 0,
                     rseq := (p.getD 3 0).setWidth 16, rlen := BitVec.ofNat 16 l, obuf := t.obuf,
                     olen := BitVec.ofNat 16 l, authOk := false, authWarn := false, footerValid := false,
                     rboot := 0, rmsg := 0, err := .ok } ∧
        ObufStored s t 0 (slice p 5 (5 + l)))

/-- R216: for every header, every data of at most 210 bytes and every key, parsing an unmodified `PKT_CREATE` output
with authentication enabled recovers the header, the data and the footer with a valid tag. The spec marks R216 as
derived. -/
def Obligations.PacketRoundTrip : Prop :=
  ∀ (s : State) (data : List Byte) (dst src flags seq : Byte), s.lstate = .idle → data.length ≤ 210 →
    s.msgId ≠ 0xFFFFFFFF → s.authEn = true →
    ∃ a b c d : State,
      hostLoad data s = .next a ∧ exec (.pktCreate dst src flags seq) a = .next b ∧
      hostLoad (b.memRead .obuf 0 b.olen.toNat) b = .next c ∧ exec .pktParse c = .next d ∧
      b.err = .ok ∧ d.err = .ok ∧ d.authOk = true ∧ d.authWarn = false ∧ d.footerValid = true ∧
      d.rdst = dst ∧ d.rsrc = src ∧ d.rflg = flags ∧ d.rseq = seq.setWidth 16 ∧
      d.rlen.toNat = data.length ∧ d.memRead .obuf 0 d.olen.toNat = data ∧
      d.rboot = s.bootCount ∧ d.rmsg = s.msgId + 1

/-- R216, the `len` byte: with authentication enabled a changed byte at offset 4 of a packet is caught before any
tag is compared, as `ERR_SHORT` when it is larger and `ERR_FORMAT` when it is smaller. The spec marks R216 as
derived. -/
def Obligations.ChangedLenByteIsRefused : Prop :=
  ∀ (s : State) (key data : List Byte) (dst src flags seq v : Byte) (boot msg : Word),
    s.lstate = .idle → s.authEn = true → data.length ≤ 210 → v.toNat ≠ data.length →
    input s = (packet key dst src flags seq data boot msg).set 4 v →
    exec .pktParse s =
      .next { s with authOk := false, authWarn := false, footerValid := false,
                     err := if data.length < v.toNat then .short else .format }

/-! ### The anti-replay store -/

/-- R231: `ADV_MSGID`, whole: counter, NV word and `RMSG` advance together, and 0xFFFFFFFF is refused. -/
def Obligations.AdvMsgidAdvancesAndPersists : Prop :=
  FormatN 0x60 .advMsgid ∧ BusyOutsideIdle .advMsgid ∧
  (∀ s : State, s.lstate = .idle → s.msgId = 0xFFFFFFFF →
    exec .advMsgid s = .next { s with err := .ctr }) ∧
  (∀ s : State, s.lstate = .idle → s.msgId ≠ 0xFFFFFFFF →
    ∃ t : State, exec .advMsgid s = .next t ∧
      t = { s with msgId := t.msgId, nvMsg := t.msgId, rmsg := t.msgId, err := .ok } ∧
      t.msgId.toNat = s.msgId.toNat + 1)

/-- R233 to R235: `SYNC_BOOT value`, whole: the three cases of the unsigned comparison under both policies; `MSG_ID` is
never touched. -/
def Obligations.SyncBootAdoptsAndFlags : Prop :=
  (∀ v : Word, decode (0x61#8 ++ v) = .ok (.syncBoot v)) ∧ (∀ v, BusyOutsideIdle (.syncBoot v)) ∧
  (∀ (v : Word) (s : State), s.lstate = .idle → s.bootCount.toNat < v.toNat →
    exec (.syncBoot v) s = .next { s with bootCount := v, nvBoot := v, err := .ok }) ∧
  (∀ (v : Word) (s : State), s.lstate = .idle → v.toNat < s.bootCount.toNat → s.adoptLower = true →
    exec (.syncBoot v) s =
      .next { s with bootCount := v, nvBoot := v, bootAnomaly := true, err := .ok }) ∧
  (∀ (v : Word) (s : State), s.lstate = .idle → v.toNat < s.bootCount.toNat → s.adoptLower = false →
    exec (.syncBoot v) s = .next { s with bootAnomaly := true, err := .ok }) ∧
  (∀ s : State, s.lstate = .idle → exec (.syncBoot s.bootCount) s = .next { s with err := .ok })

/-- R236: `NV_LOAD`, whole: both counters from NV, and nothing else; where registers and NV agree it changes nothing. -/
def Obligations.NvLoadReloadsBothCounters : Prop :=
  FormatN 0x62 .nvLoad ∧ BusyOutsideIdle .nvLoad ∧
  (∀ s : State, s.lstate = .idle →
    exec .nvLoad s = .next { s with bootCount := s.nvBoot, msgId := s.nvMsg, err := .ok }) ∧
  (∀ s : State, s.lstate = .idle → CountersSaved s → exec .nvLoad s = .next { s with err := .ok })

/-- R205: consecutive packets carry consecutive message ids, as `RMSG` reports them, with no gaps. The spec marks R205
as derived. -/
def Obligations.ConsecutivePacketsHaveNoGaps : Prop :=
  ∀ (cmds : List (Byte × Byte × Byte × Byte)) (s : State), s.lstate = .idle → s.ilen.toNat ≤ 210 →
    s.msgId.toNat + cmds.length ≤ 0xFFFFFFFF →
    issuedIds (cmds.map fun c => .pktCreate c.1 c.2.1 c.2.2.1 c.2.2.2) s =
      (List.range cmds.length).map fun k => s.msgId + 1 + BitVec.ofNat 32 k

/-- R232: over any number of steps, resets among them, the message id never goes back: it never decreases, and after
every step NV holds it. The spec marks R232 as derived; that NV is never rewritten from outside is the model's (log
entry 15). -/
def Obligations.MsgIdNeverGoesBack : Prop :=
  ∀ (n : Nat) (s t : State), CountersSaved s → Sys2Proof.core.run n s = .next t →
    s.msgId.toNat ≤ t.msgId.toNat ∧ CountersSaved t

/-! ### Rules of the whole machine -/

/-- R266: every command but `NOP`, `LINK_BYTE`, `LINK_TIMEOUT`, `LINK_ABORT` fails with `ERR_BUSY` while a link activity
is in progress, and changes nothing else; those four are never refused so. -/
def Obligations.BusyCheckIsUniform : Prop :=
  (∀ (i : Instr) (s : State), s.lstate ≠ .idle → anyState i = false →
    exec i s = .next { s with err := .busy }) ∧
  (∀ (i : Instr) (s t : State), anyState i = true → exec i s = .next t → t.err ≠ .busy)

/-- R270: errors are precise: a command that reports an error leaves every piece of state as it was but `ERR`, with the
one exception of the flags that a `PKT_PARSE` clears. -/
def Obligations.ErrorsArePrecise : Prop :=
  ∀ (i : Instr) (s t : State), exec i s = .next t → t.err ≠ .ok →
    t = { s with err := t.err } ∨
    (i = .pktParse ∧ s.lstate = .idle ∧
      t = { s with err := t.err, authOk := false, authWarn := false, footerValid := false })

/-- R260 and R265: each command reports one of the codes the table gives it. -/
def Obligations.EachCommandReportsItsCodes : Prop :=
  ∀ (i : Instr) (s t : State), exec i s = .next t → t.err ∈ codes i

/-- R324: the complete transition relation of `LSTATE`: what every command makes of it, refused or not; and, at the
level of the step, that an illegal word, a host load, a host read and a host write that issues no command leave it, and
that a reset gives `IDLE`. The spec marks R324 as derived; the moves are the model's (log entry 1). -/
def Obligations.SequencerTransitionRelation : Prop :=
  (∀ (i : Instr) (s t : State), exec i s = .next t → t.lstate = nextLState i s) ∧
  (∀ (s t : State) (w : CmdWord) (rest : List Move), s.moves = .cmd w :: rest → step s = .next t →
    t.lstate = match decode w with
      | .ok i => nextLState i s
      | .error _ => s.lstate) ∧
  (∀ (s t : State) (v : Word) (rest : List Move), s.moves = .write 0x04 v :: rest → step s = .next t →
    t.lstate = match decodePort v s.arg with
      | .ok i => nextLState i s
      | .error _ => s.lstate) ∧
  (∀ (s t : State) (m : Move) (rest : List Move), s.moves = m :: rest → step s = .next t →
    (∃ bs, m = .load bs) ∨ (∃ a, m = .read a) ∨ (∃ b, m = .arrive b) ∨ (∃ a v, m = .write a v ∧ a / 4 ≠ 1) →
    t.lstate = s.lstate) ∧
  (∀ (s : State) (rest : List Move), s.moves = .reset :: rest →
    ∃ t : State, step s = .next t ∧ t.lstate = .idle)

/-- No command writes IBUF, `ILEN` or `ARG`, takes a byte of RXIN by itself, or takes a byte of TXOUT back (R38, R22,
R64, R67). `ARG`, RXIN and the parameters as fields are the model's (log entries 2, 4, 9), and so is that a `LINK_BYTE`
which the host injects takes no byte of RXIN (log entry 18). -/
def Obligations.CommandsNeverWriteTheirInput : Prop :=
  ∀ (i : Instr) (s t : State), exec i s = .next t →
    (∀ a, t.byteAt .ibuf a = s.byteAt .ibuf a) ∧ t.ibuf = s.ibuf ∧ t.ilen = s.ilen ∧ t.arg = s.arg ∧
    t.rxin = s.rxin ∧ t.params = s.params ∧ ∃ bs, t.txout = s.txout ++ bs

/-- The memory frame of every command: each byte of OBUF outside the bytes the command stores to reads as before;
most commands store to none (R38, R325). The bytes where nothing is written are free values (log entry 3). -/
def Obligations.ObufChangesOnlyWhereStored : Prop :=
  ∀ (i : Instr) (s t : State), exec i s = .next t → ∀ a : Nat,
    ¬ ((storedAt i s).1 ≤ a ∧ a < (storedAt i s).1 + (storedAt i s).2) →
    t.byteAt .obuf a = s.byteAt .obuf a

/-- R37 and R62: only `PKT_CREATE`, `ADV_MSGID` and `NV_LOAD` change `MSG_ID`, only `SYNC_BOOT` and `NV_LOAD` change
`BOOT_COUNT`, and whatever changes a counter leaves NV equal to it. -/
def Obligations.CountersChangeOnlyWithNv : Prop :=
  ∀ (i : Instr) (s t : State), exec i s = .next t →
    (t.msgId ≠ s.msgId →
      t.nvMsg = t.msgId ∧ (i = .advMsgid ∨ i = .nvLoad ∨ ∃ d r f q, i = .pktCreate d r f q)) ∧
    (t.bootCount ≠ s.bootCount → t.nvBoot = t.bootCount ∧ (i = .nvLoad ∨ ∃ v, i = .syncBoot v)) ∧
    (t.nvMsg ≠ s.nvMsg → t.nvMsg = t.msgId) ∧ (t.nvBoot ≠ s.nvBoot → t.nvBoot = t.bootCount)

/-- R38: no command's result depends on a byte of IBUF at or beyond `ILEN`: on two states that agree below it, every
command does the same. The bytes where nothing is written are free values (log entry 3). -/
def Obligations.BytesBeyondIlenDoNotMatter : Prop :=
  ∀ (i : Instr) (s : State) (m : Memory),
    (∀ a < s.ilen.toNat, State.byteAt { s with ibuf := m } .ibuf a = s.byteAt .ibuf a) →
    exec i { s with ibuf := m } = mapNext (fun t => { t with ibuf := m }) (exec i s)

/-- The key is read by `PKT_CREATE` and `PKT_PARSE` alone and by no host read: with another key every other command does
the same, and every read answers the same (R9, R187, R280). The key as a field of the state is the model's (log entry
2), and so is that the reads with no stated value do not depend on it (log entry 8). -/
def Obligations.KeyIsReadOnlyByThePacketCommands : Prop :=
  (∀ (i : Instr) (s : State) (k : List Byte), (∀ d r f q, i ≠ .pktCreate d r f q) → i ≠ .pktParse →
    exec i (withKey k s) = mapNext (withKey k) (exec i s)) ∧
  (∀ (s : State) (k : List Byte) (a : Nat), hostRead (withKey k s) a = hostRead s a)

/-! ### Registers as the host sees them -/

/-- R29, R33 to R35: every field of `STATUS` and of `LSTAT` at its bits, with the code values of R260, R33, R34 and
R263, and the reserved bits read 0; and of the rest of the register map of R66: every other register that the host may
read, zero-extended, the two windows, the reserved addresses that read 0; a host read changes nothing (R21, R320 (d)); a
write to a read-only register, the OBUF window or a reserved address is ignored (R66); a write of `ARG` sets it and
changes nothing else (R66; `ARG` as a field: log entry 4). Writes of `OP` are in `StepRunsTheDecodedCommand`, writes of
the input in `LoadSetsTheInput`. The model's own: that the accesses are moves of a list that a step takes (log entry
1), and that a write at an address inside a read-only register is a write to that register or to none, and so ignored
(log entry 17). What a read of `ARG` or `OP` and one at an address inside a register answer is a free value and not
stated (log entry 8). -/
def Obligations.StatusAndLstatFields : Prop :=
  ∀ s : State,
    hostRead s 0x08 = statusWord s ∧ hostRead s 0x40 = lstatWord s ∧
    (statusWord s).extractLsb' 0 4 = s.err.code ∧ (statusWord s).getLsbD 4 = s.authOk ∧
    (statusWord s).getLsbD 5 = s.authWarn ∧ (statusWord s).getLsbD 6 = s.footerValid ∧
    (statusWord s).getLsbD 7 = s.bootAnomaly ∧ ((statusWord s).getLsbD 8 = true ↔ s.lstate ≠ .idle) ∧
    (statusWord s).extractLsb' 9 23 = 0 ∧
    (lstatWord s).extractLsb' 0 3 = s.lstate.code ∧ (lstatWord s).extractLsb' 3 3 = s.lresult.code ∧
    (lstatWord s).extractLsb' 6 4 = s.lcause.code ∧ (lstatWord s).extractLsb' 10 2 = s.syncCnt ∧
    (lstatWord s).extractLsb' 12 4 = s.missCnt ∧ (lstatWord s).extractLsb' 16 2 = s.txTries ∧
    (lstatWord s).extractLsb' 18 13 = s.byteIdx ∧ (lstatWord s).getLsbD 31 = false ∧
    FieldCodes ∧ RegisterMapReads s ∧ HostAccessesChangeNothingElse s ∧ ArgWriteSetsOnlyArg s

/-- R57: `LOAD(s)` in `IDLE` sets the input and nothing else; bytes at and beyond its length keep their values;
while a link activity is in progress it has no move, and a longer one than 4104 bytes never has one (R320 (b)); at
register level it is a sequence of byte writes to the IBUF window followed by a write of `ILEN`, which on a buffer in
canonical form gives the very same state. One byte write of the window stores that byte and nothing else, a write of
`ILEN` sets it and nothing else, a larger value is ignored, and both have no move while a link activity is in progress.
A step with the move `load` or `write` pending is that load or that write. The moves are the model's (log entry 1), the
refusals are its names for "no move" (log entry 7), and that a window write takes the low 8 bits is log entry 8. -/
def Obligations.LoadSetsTheInput : Prop :=
  (∀ (s : State) (bs : List Byte) (rest : List Move), s.moves = .load bs :: rest →
    step s = hostLoad bs { s with moves := rest }) ∧
  (∀ (s : State) (a : Nat) (v : Word) (rest : List Move), s.moves = .write a v :: rest →
    step s = hostWrite a v { s with moves := rest }) ∧
  (∀ (s : State) (bs : List Byte), s.lstate = .idle → bs.length ≤ 4104 →
    ∃ t : State, hostLoad bs s = .next t ∧ t = { s with ibuf := t.ibuf, ilen := t.ilen } ∧
      t.ilen.toNat = bs.length ∧ input t = bs ∧
      ∀ a, bs.length ≤ a → t.byteAt .ibuf a = s.byteAt .ibuf a) ∧
  (∀ (s : State) (bs : List Byte), s.lstate ≠ .idle → hostLoad bs s = .refused .loadWhileActive) ∧
  (∀ (s : State) (bs : List Byte), s.lstate = .idle → 4104 < bs.length → hostLoad bs s = .refused .loadTooLong) ∧
  (∀ (s : State) (bs : List Byte), s.lstate = .idle → bs.length ≤ 4104 → s.ibuf.wf →
    ∃ t u : State, writeBytes 0 bs s = .next t ∧ hostWrite 0x10 (BitVec.ofNat 32 bs.length) t = .next u ∧
      hostLoad bs s = .next u) ∧
  (∀ (s : State) (i : Nat) (v : Word), s.lstate = .idle → i < 4104 →
    ∃ t : State, hostWrite (0x2000 + i) v s = .next t ∧ t = { s with ibuf := t.ibuf } ∧
      ∀ a, t.byteAt .ibuf a = if a = i then v.extractLsb' 0 8 else s.byteAt .ibuf a) ∧
  (∀ (s : State) (v : Word), s.lstate = .idle → v.toNat ≤ 4104 →
    ∃ t : State, hostWrite 0x10 v s = .next t ∧ t = { s with ilen := t.ilen } ∧ t.ilen.toNat = v.toNat) ∧
  (∀ (s : State) (v : Word), s.lstate = .idle → 4104 < v.toNat → hostWrite 0x10 v s = .next s) ∧
  (∀ (s : State) (a : Nat) (v : Word), s.lstate ≠ .idle → (0x2000 ≤ a ∧ a < 0x3008) ∨ a = 0x10 →
    hostWrite a v s = .refused .loadWhileActive)

/-! ### Reset and the invariants -/

/-- R42 and R290: what a reset step leaves, from every state: the counters from NV, NV as it was, nothing emitted,
and every other register the spec lists at its value. The move `reset` is the model's (log entry 1); what the
buffers hold after it is a free value (log entry 3) and is not stated. -/
def Obligations.ResetStepSetsTheTable : Prop :=
  ∀ (s : State) (rest : List Move), s.moves = .reset :: rest →
    ∃ t : State, step s = .next t ∧
      t.bootCount = s.nvBoot ∧ t.msgId = s.nvMsg ∧ t.nvBoot = s.nvBoot ∧ t.nvMsg = s.nvMsg ∧
      t.err = .ok ∧ t.authOk = false ∧ t.authWarn = false ∧ t.footerValid = false ∧ t.bootAnomaly = false ∧
      t.cfg = 0b111 ∧ t.ilen = 0 ∧ t.olen = 0 ∧ t.rlen = 0 ∧ t.rseq = 0 ∧ t.rcrc = 0 ∧ t.rdst = 0 ∧
      t.rsrc = 0 ∧ t.rflg = 0 ∧ t.rboot = 0 ∧ t.rmsg = 0 ∧ t.lstate = .idle ∧ t.lresult = .none ∧
      t.lcause = .none ∧ t.lexp = 0 ∧ t.lact = 0 ∧ t.syncCnt = 0 ∧ t.missCnt = 0 ∧ t.txTries = 0 ∧
      t.byteIdx = 0 ∧ t.hbuf.toList = List.replicate 8 0 ∧ t.txout = s.txout ∧ t.params = s.params

/-- Every invariant the rules name holds right after reset (R20 to R42). `State.reset` lists no byte of the buffers:
the model's choice (log entry 3). -/
def Obligations.ResetIsSound : Prop := Sound State.reset

/-- Every step keeps every invariant the rules name: counters equal to NV, buffers within their bounds and in
canonical form, flags and link record consistent, counters within the bounds of their state, and the latched header
describing the payload that will be sent (R22, R23, R31, R34 to R37, R133, R322). The canonical form of the buffers
is the model's (log entry 3), and so are the moves a step makes (log entries 1, 9). -/
def Obligations.EveryStepKeepsSound : Prop :=
  ∀ s t : State, Sound s → step s = .next t → Sound t

/-- R326: in a sound state every command completes, in a sound state: there is no out-of-range access and so no access
fault. The spec marks R326 as derived; the fault it excludes is the model's (log entry 5). -/
def Obligations.SoundStatesRunEveryCommand : Prop :=
  ∀ (i : Instr) (s : State), Sound s → ∃ t : State, exec i s = .next t ∧ Sound t
end

