-- ==== Sys2Proof/Laws/State.lean ====
section
/-! SUPPORT. One lemma per field of State per update, each true by rfl: what every named update of Machine/Ops.lean,
Machine/Operands.lean and Machine/Flags.lean leaves in each field. -/

namespace Sys2Proof.Machine

/-! ### R271: taking an error -/

@[simp] theorem takeError_ilen (e : Err) (s : State) : (takeError e s).ilen = s.ilen := rfl
@[simp] theorem takeError_olen (e : Err) (s : State) : (takeError e s).olen = s.olen := rfl
@[simp] theorem takeError_rlen (e : Err) (s : State) : (takeError e s).rlen = s.rlen := rfl
@[simp] theorem takeError_rseq (e : Err) (s : State) : (takeError e s).rseq = s.rseq := rfl
@[simp] theorem takeError_rcrc (e : Err) (s : State) : (takeError e s).rcrc = s.rcrc := rfl
@[simp] theorem takeError_rdst (e : Err) (s : State) : (takeError e s).rdst = s.rdst := rfl
@[simp] theorem takeError_rsrc (e : Err) (s : State) : (takeError e s).rsrc = s.rsrc := rfl
@[simp] theorem takeError_rflg (e : Err) (s : State) : (takeError e s).rflg = s.rflg := rfl
@[simp] theorem takeError_rboot (e : Err) (s : State) : (takeError e s).rboot = s.rboot := rfl
@[simp] theorem takeError_rmsg (e : Err) (s : State) : (takeError e s).rmsg = s.rmsg := rfl
@[simp] theorem takeError_err (e : Err) (s : State) : (takeError e s).err = e := rfl
@[simp] theorem takeError_authOk (e : Err) (s : State) : (takeError e s).authOk = s.authOk := rfl
@[simp] theorem takeError_authWarn (e : Err) (s : State) : (takeError e s).authWarn = s.authWarn := rfl
@[simp] theorem takeError_footerValid (e : Err) (s : State) : (takeError e s).footerValid = s.footerValid := rfl
@[simp] theorem takeError_bootAnomaly (e : Err) (s : State) : (takeError e s).bootAnomaly = s.bootAnomaly := rfl
@[simp] theorem takeError_cfg (e : Err) (s : State) : (takeError e s).cfg = s.cfg := rfl
@[simp] theorem takeError_lstate (e : Err) (s : State) : (takeError e s).lstate = s.lstate := rfl
@[simp] theorem takeError_lresult (e : Err) (s : State) : (takeError e s).lresult = s.lresult := rfl
@[simp] theorem takeError_lcause (e : Err) (s : State) : (takeError e s).lcause = s.lcause := rfl
@[simp] theorem takeError_syncCnt (e : Err) (s : State) : (takeError e s).syncCnt = s.syncCnt := rfl
@[simp] theorem takeError_missCnt (e : Err) (s : State) : (takeError e s).missCnt = s.missCnt := rfl
@[simp] theorem takeError_txTries (e : Err) (s : State) : (takeError e s).txTries = s.txTries := rfl
@[simp] theorem takeError_byteIdx (e : Err) (s : State) : (takeError e s).byteIdx = s.byteIdx := rfl
@[simp] theorem takeError_lexp (e : Err) (s : State) : (takeError e s).lexp = s.lexp := rfl
@[simp] theorem takeError_lact (e : Err) (s : State) : (takeError e s).lact = s.lact := rfl
@[simp] theorem takeError_hbuf (e : Err) (s : State) : (takeError e s).hbuf = s.hbuf := rfl
@[simp] theorem takeError_bootCount (e : Err) (s : State) : (takeError e s).bootCount = s.bootCount := rfl
@[simp] theorem takeError_msgId (e : Err) (s : State) : (takeError e s).msgId = s.msgId := rfl
@[simp] theorem takeError_ibuf (e : Err) (s : State) : (takeError e s).ibuf = s.ibuf := rfl
@[simp] theorem takeError_obuf (e : Err) (s : State) : (takeError e s).obuf = s.obuf := rfl
@[simp] theorem takeError_nvBoot (e : Err) (s : State) : (takeError e s).nvBoot = s.nvBoot := rfl
@[simp] theorem takeError_nvMsg (e : Err) (s : State) : (takeError e s).nvMsg = s.nvMsg := rfl
@[simp] theorem takeError_arg (e : Err) (s : State) : (takeError e s).arg = s.arg := rfl
@[simp] theorem takeError_rxin (e : Err) (s : State) : (takeError e s).rxin = s.rxin := rfl
@[simp] theorem takeError_txout (e : Err) (s : State) : (takeError e s).txout = s.txout := rfl
@[simp] theorem takeError_params (e : Err) (s : State) : (takeError e s).params = s.params := rfl
@[simp] theorem takeError_epoch (e : Err) (s : State) : (takeError e s).epoch = s.epoch := rfl
@[simp] theorem takeError_moves (e : Err) (s : State) : (takeError e s).moves = s.moves := rfl

/-! ### R16: completing a command -/

@[simp] theorem complete_ilen (s : State) : (complete s).ilen = s.ilen := rfl
@[simp] theorem complete_olen (s : State) : (complete s).olen = s.olen := rfl
@[simp] theorem complete_rlen (s : State) : (complete s).rlen = s.rlen := rfl
@[simp] theorem complete_rseq (s : State) : (complete s).rseq = s.rseq := rfl
@[simp] theorem complete_rcrc (s : State) : (complete s).rcrc = s.rcrc := rfl
@[simp] theorem complete_rdst (s : State) : (complete s).rdst = s.rdst := rfl
@[simp] theorem complete_rsrc (s : State) : (complete s).rsrc = s.rsrc := rfl
@[simp] theorem complete_rflg (s : State) : (complete s).rflg = s.rflg := rfl
@[simp] theorem complete_rboot (s : State) : (complete s).rboot = s.rboot := rfl
@[simp] theorem complete_rmsg (s : State) : (complete s).rmsg = s.rmsg := rfl
@[simp] theorem complete_err (s : State) : (complete s).err = Err.ok := rfl
@[simp] theorem complete_authOk (s : State) : (complete s).authOk = s.authOk := rfl
@[simp] theorem complete_authWarn (s : State) : (complete s).authWarn = s.authWarn := rfl
@[simp] theorem complete_footerValid (s : State) : (complete s).footerValid = s.footerValid := rfl
@[simp] theorem complete_bootAnomaly (s : State) : (complete s).bootAnomaly = s.bootAnomaly := rfl
@[simp] theorem complete_cfg (s : State) : (complete s).cfg = s.cfg := rfl
@[simp] theorem complete_lstate (s : State) : (complete s).lstate = s.lstate := rfl
@[simp] theorem complete_lresult (s : State) : (complete s).lresult = s.lresult := rfl
@[simp] theorem complete_lcause (s : State) : (complete s).lcause = s.lcause := rfl
@[simp] theorem complete_syncCnt (s : State) : (complete s).syncCnt = s.syncCnt := rfl
@[simp] theorem complete_missCnt (s : State) : (complete s).missCnt = s.missCnt := rfl
@[simp] theorem complete_txTries (s : State) : (complete s).txTries = s.txTries := rfl
@[simp] theorem complete_byteIdx (s : State) : (complete s).byteIdx = s.byteIdx := rfl
@[simp] theorem complete_lexp (s : State) : (complete s).lexp = s.lexp := rfl
@[simp] theorem complete_lact (s : State) : (complete s).lact = s.lact := rfl
@[simp] theorem complete_hbuf (s : State) : (complete s).hbuf = s.hbuf := rfl
@[simp] theorem complete_bootCount (s : State) : (complete s).bootCount = s.bootCount := rfl
@[simp] theorem complete_msgId (s : State) : (complete s).msgId = s.msgId := rfl
@[simp] theorem complete_ibuf (s : State) : (complete s).ibuf = s.ibuf := rfl
@[simp] theorem complete_obuf (s : State) : (complete s).obuf = s.obuf := rfl
@[simp] theorem complete_nvBoot (s : State) : (complete s).nvBoot = s.nvBoot := rfl
@[simp] theorem complete_nvMsg (s : State) : (complete s).nvMsg = s.nvMsg := rfl
@[simp] theorem complete_arg (s : State) : (complete s).arg = s.arg := rfl
@[simp] theorem complete_rxin (s : State) : (complete s).rxin = s.rxin := rfl
@[simp] theorem complete_txout (s : State) : (complete s).txout = s.txout := rfl
@[simp] theorem complete_params (s : State) : (complete s).params = s.params := rfl
@[simp] theorem complete_epoch (s : State) : (complete s).epoch = s.epoch := rfl
@[simp] theorem complete_moves (s : State) : (complete s).moves = s.moves := rfl

/-! ### R15: emitting -/

@[simp] theorem emit_ilen (bs : List Byte) (s : State) : (emit bs s).ilen = s.ilen := rfl
@[simp] theorem emit_olen (bs : List Byte) (s : State) : (emit bs s).olen = s.olen := rfl
@[simp] theorem emit_rlen (bs : List Byte) (s : State) : (emit bs s).rlen = s.rlen := rfl
@[simp] theorem emit_rseq (bs : List Byte) (s : State) : (emit bs s).rseq = s.rseq := rfl
@[simp] theorem emit_rcrc (bs : List Byte) (s : State) : (emit bs s).rcrc = s.rcrc := rfl
@[simp] theorem emit_rdst (bs : List Byte) (s : State) : (emit bs s).rdst = s.rdst := rfl
@[simp] theorem emit_rsrc (bs : List Byte) (s : State) : (emit bs s).rsrc = s.rsrc := rfl
@[simp] theorem emit_rflg (bs : List Byte) (s : State) : (emit bs s).rflg = s.rflg := rfl
@[simp] theorem emit_rboot (bs : List Byte) (s : State) : (emit bs s).rboot = s.rboot := rfl
@[simp] theorem emit_rmsg (bs : List Byte) (s : State) : (emit bs s).rmsg = s.rmsg := rfl
@[simp] theorem emit_err (bs : List Byte) (s : State) : (emit bs s).err = s.err := rfl
@[simp] theorem emit_authOk (bs : List Byte) (s : State) : (emit bs s).authOk = s.authOk := rfl
@[simp] theorem emit_authWarn (bs : List Byte) (s : State) : (emit bs s).authWarn = s.authWarn := rfl
@[simp] theorem emit_footerValid (bs : List Byte) (s : State) : (emit bs s).footerValid = s.footerValid := rfl
@[simp] theorem emit_bootAnomaly (bs : List Byte) (s : State) : (emit bs s).bootAnomaly = s.bootAnomaly := rfl
@[simp] theorem emit_cfg (bs : List Byte) (s : State) : (emit bs s).cfg = s.cfg := rfl
@[simp] theorem emit_lstate (bs : List Byte) (s : State) : (emit bs s).lstate = s.lstate := rfl
@[simp] theorem emit_lresult (bs : List Byte) (s : State) : (emit bs s).lresult = s.lresult := rfl
@[simp] theorem emit_lcause (bs : List Byte) (s : State) : (emit bs s).lcause = s.lcause := rfl
@[simp] theorem emit_syncCnt (bs : List Byte) (s : State) : (emit bs s).syncCnt = s.syncCnt := rfl
@[simp] theorem emit_missCnt (bs : List Byte) (s : State) : (emit bs s).missCnt = s.missCnt := rfl
@[simp] theorem emit_txTries (bs : List Byte) (s : State) : (emit bs s).txTries = s.txTries := rfl
@[simp] theorem emit_byteIdx (bs : List Byte) (s : State) : (emit bs s).byteIdx = s.byteIdx := rfl
@[simp] theorem emit_lexp (bs : List Byte) (s : State) : (emit bs s).lexp = s.lexp := rfl
@[simp] theorem emit_lact (bs : List Byte) (s : State) : (emit bs s).lact = s.lact := rfl
@[simp] theorem emit_hbuf (bs : List Byte) (s : State) : (emit bs s).hbuf = s.hbuf := rfl
@[simp] theorem emit_bootCount (bs : List Byte) (s : State) : (emit bs s).bootCount = s.bootCount := rfl
@[simp] theorem emit_msgId (bs : List Byte) (s : State) : (emit bs s).msgId = s.msgId := rfl
@[simp] theorem emit_ibuf (bs : List Byte) (s : State) : (emit bs s).ibuf = s.ibuf := rfl
@[simp] theorem emit_obuf (bs : List Byte) (s : State) : (emit bs s).obuf = s.obuf := rfl
@[simp] theorem emit_nvBoot (bs : List Byte) (s : State) : (emit bs s).nvBoot = s.nvBoot := rfl
@[simp] theorem emit_nvMsg (bs : List Byte) (s : State) : (emit bs s).nvMsg = s.nvMsg := rfl
@[simp] theorem emit_arg (bs : List Byte) (s : State) : (emit bs s).arg = s.arg := rfl
@[simp] theorem emit_rxin (bs : List Byte) (s : State) : (emit bs s).rxin = s.rxin := rfl
@[simp] theorem emit_txout (bs : List Byte) (s : State) : (emit bs s).txout = s.txout ++ bs := rfl
@[simp] theorem emit_params (bs : List Byte) (s : State) : (emit bs s).params = s.params := rfl
@[simp] theorem emit_epoch (bs : List Byte) (s : State) : (emit bs s).epoch = s.epoch := rfl
@[simp] theorem emit_moves (bs : List Byte) (s : State) : (emit bs s).moves = s.moves := rfl

/-! ### R154: ending a link activity -/

@[simp] theorem linkEnd_ilen (r : LResult) (c : LCause) (x a : Word) (s : State) : (linkEnd r c x a s).ilen = s.ilen := rfl
@[simp] theorem linkEnd_olen (r : LResult) (c : LCause) (x a : Word) (s : State) : (linkEnd r c x a s).olen = s.olen := rfl
@[simp] theorem linkEnd_rlen (r : LResult) (c : LCause) (x a : Word) (s : State) : (linkEnd r c x a s).rlen = s.rlen := rfl
@[simp] theorem linkEnd_rseq (r : LResult) (c : LCause) (x a : Word) (s : State) : (linkEnd r c x a s).rseq = s.rseq := rfl
@[simp] theorem linkEnd_rcrc (r : LResult) (c : LCause) (x a : Word) (s : State) : (linkEnd r c x a s).rcrc = s.rcrc := rfl
@[simp] theorem linkEnd_rdst (r : LResult) (c : LCause) (x a : Word) (s : State) : (linkEnd r c x a s).rdst = s.rdst := rfl
@[simp] theorem linkEnd_rsrc (r : LResult) (c : LCause) (x a : Word) (s : State) : (linkEnd r c x a s).rsrc = s.rsrc := rfl
@[simp] theorem linkEnd_rflg (r : LResult) (c : LCause) (x a : Word) (s : State) : (linkEnd r c x a s).rflg = s.rflg := rfl
@[simp] theorem linkEnd_rboot (r : LResult) (c : LCause) (x a : Word) (s : State) : (linkEnd r c x a s).rboot = s.rboot := rfl
@[simp] theorem linkEnd_rmsg (r : LResult) (c : LCause) (x a : Word) (s : State) : (linkEnd r c x a s).rmsg = s.rmsg := rfl
@[simp] theorem linkEnd_err (r : LResult) (c : LCause) (x a : Word) (s : State) : (linkEnd r c x a s).err = s.err := rfl
@[simp] theorem linkEnd_authOk (r : LResult) (c : LCause) (x a : Word) (s : State) : (linkEnd r c x a s).authOk = s.authOk := rfl
@[simp] theorem linkEnd_authWarn (r : LResult) (c : LCause) (x a : Word) (s : State) : (linkEnd r c x a s).authWarn = s.authWarn := rfl
@[simp] theorem linkEnd_footerValid (r : LResult) (c : LCause) (x a : Word) (s : State) : (linkEnd r c x a s).footerValid = s.footerValid := rfl
@[simp] theorem linkEnd_bootAnomaly (r : LResult) (c : LCause) (x a : Word) (s : State) : (linkEnd r c x a s).bootAnomaly = s.bootAnomaly := rfl
@[simp] theorem linkEnd_cfg (r : LResult) (c : LCause) (x a : Word) (s : State) : (linkEnd r c x a s).cfg = s.cfg := rfl
@[simp] theorem linkEnd_lstate (r : LResult) (c : LCause) (x a : Word) (s : State) : (linkEnd r c x a s).lstate = LState.idle := rfl
@[simp] theorem linkEnd_lresult (r : LResult) (c : LCause) (x a : Word) (s : State) : (linkEnd r c x a s).lresult = r := rfl
@[simp] theorem linkEnd_lcause (r : LResult) (c : LCause) (x a : Word) (s : State) : (linkEnd r c x a s).lcause = c := rfl
@[simp] theorem linkEnd_syncCnt (r : LResult) (c : LCause) (x a : Word) (s : State) : (linkEnd r c x a s).syncCnt = s.syncCnt := rfl
@[simp] theorem linkEnd_missCnt (r : LResult) (c : LCause) (x a : Word) (s : State) : (linkEnd r c x a s).missCnt = s.missCnt := rfl
@[simp] theorem linkEnd_txTries (r : LResult) (c : LCause) (x a : Word) (s : State) : (linkEnd r c x a s).txTries = s.txTries := rfl
@[simp] theorem linkEnd_byteIdx (r : LResult) (c : LCause) (x a : Word) (s : State) : (linkEnd r c x a s).byteIdx = s.byteIdx := rfl
@[simp] theorem linkEnd_lexp (r : LResult) (c : LCause) (x a : Word) (s : State) : (linkEnd r c x a s).lexp = x := rfl
@[simp] theorem linkEnd_lact (r : LResult) (c : LCause) (x a : Word) (s : State) : (linkEnd r c x a s).lact = a := rfl
@[simp] theorem linkEnd_hbuf (r : LResult) (c : LCause) (x a : Word) (s : State) : (linkEnd r c x a s).hbuf = s.hbuf := rfl
@[simp] theorem linkEnd_bootCount (r : LResult) (c : LCause) (x a : Word) (s : State) : (linkEnd r c x a s).bootCount = s.bootCount := rfl
@[simp] theorem linkEnd_msgId (r : LResult) (c : LCause) (x a : Word) (s : State) : (linkEnd r c x a s).msgId = s.msgId := rfl
@[simp] theorem linkEnd_ibuf (r : LResult) (c : LCause) (x a : Word) (s : State) : (linkEnd r c x a s).ibuf = s.ibuf := rfl
@[simp] theorem linkEnd_obuf (r : LResult) (c : LCause) (x a : Word) (s : State) : (linkEnd r c x a s).obuf = s.obuf := rfl
@[simp] theorem linkEnd_nvBoot (r : LResult) (c : LCause) (x a : Word) (s : State) : (linkEnd r c x a s).nvBoot = s.nvBoot := rfl
@[simp] theorem linkEnd_nvMsg (r : LResult) (c : LCause) (x a : Word) (s : State) : (linkEnd r c x a s).nvMsg = s.nvMsg := rfl
@[simp] theorem linkEnd_arg (r : LResult) (c : LCause) (x a : Word) (s : State) : (linkEnd r c x a s).arg = s.arg := rfl
@[simp] theorem linkEnd_rxin (r : LResult) (c : LCause) (x a : Word) (s : State) : (linkEnd r c x a s).rxin = s.rxin := rfl
@[simp] theorem linkEnd_txout (r : LResult) (c : LCause) (x a : Word) (s : State) : (linkEnd r c x a s).txout = s.txout := rfl
@[simp] theorem linkEnd_params (r : LResult) (c : LCause) (x a : Word) (s : State) : (linkEnd r c x a s).params = s.params := rfl
@[simp] theorem linkEnd_epoch (r : LResult) (c : LCause) (x a : Word) (s : State) : (linkEnd r c x a s).epoch = s.epoch := rfl
@[simp] theorem linkEnd_moves (r : LResult) (c : LCause) (x a : Word) (s : State) : (linkEnd r c x a s).moves = s.moves := rfl

/-! ### R131, R151: clearing the link record -/

@[simp] theorem clearLink_ilen (s : State) : (clearLink s).ilen = s.ilen := rfl
@[simp] theorem clearLink_olen (s : State) : (clearLink s).olen = s.olen := rfl
@[simp] theorem clearLink_rlen (s : State) : (clearLink s).rlen = s.rlen := rfl
@[simp] theorem clearLink_rseq (s : State) : (clearLink s).rseq = s.rseq := rfl
@[simp] theorem clearLink_rcrc (s : State) : (clearLink s).rcrc = s.rcrc := rfl
@[simp] theorem clearLink_rdst (s : State) : (clearLink s).rdst = s.rdst := rfl
@[simp] theorem clearLink_rsrc (s : State) : (clearLink s).rsrc = s.rsrc := rfl
@[simp] theorem clearLink_rflg (s : State) : (clearLink s).rflg = s.rflg := rfl
@[simp] theorem clearLink_rboot (s : State) : (clearLink s).rboot = s.rboot := rfl
@[simp] theorem clearLink_rmsg (s : State) : (clearLink s).rmsg = s.rmsg := rfl
@[simp] theorem clearLink_err (s : State) : (clearLink s).err = s.err := rfl
@[simp] theorem clearLink_authOk (s : State) : (clearLink s).authOk = s.authOk := rfl
@[simp] theorem clearLink_authWarn (s : State) : (clearLink s).authWarn = s.authWarn := rfl
@[simp] theorem clearLink_footerValid (s : State) : (clearLink s).footerValid = s.footerValid := rfl
@[simp] theorem clearLink_bootAnomaly (s : State) : (clearLink s).bootAnomaly = s.bootAnomaly := rfl
@[simp] theorem clearLink_cfg (s : State) : (clearLink s).cfg = s.cfg := rfl
@[simp] theorem clearLink_lstate (s : State) : (clearLink s).lstate = s.lstate := rfl
@[simp] theorem clearLink_lresult (s : State) : (clearLink s).lresult = LResult.none := rfl
@[simp] theorem clearLink_lcause (s : State) : (clearLink s).lcause = LCause.none := rfl
@[simp] theorem clearLink_syncCnt (s : State) : (clearLink s).syncCnt = 0 := rfl
@[simp] theorem clearLink_missCnt (s : State) : (clearLink s).missCnt = 0 := rfl
@[simp] theorem clearLink_txTries (s : State) : (clearLink s).txTries = 0 := rfl
@[simp] theorem clearLink_byteIdx (s : State) : (clearLink s).byteIdx = 0 := rfl
@[simp] theorem clearLink_lexp (s : State) : (clearLink s).lexp = 0 := rfl
@[simp] theorem clearLink_lact (s : State) : (clearLink s).lact = 0 := rfl
@[simp] theorem clearLink_hbuf (s : State) : (clearLink s).hbuf = s.hbuf := rfl
@[simp] theorem clearLink_bootCount (s : State) : (clearLink s).bootCount = s.bootCount := rfl
@[simp] theorem clearLink_msgId (s : State) : (clearLink s).msgId = s.msgId := rfl
@[simp] theorem clearLink_ibuf (s : State) : (clearLink s).ibuf = s.ibuf := rfl
@[simp] theorem clearLink_obuf (s : State) : (clearLink s).obuf = s.obuf := rfl
@[simp] theorem clearLink_nvBoot (s : State) : (clearLink s).nvBoot = s.nvBoot := rfl
@[simp] theorem clearLink_nvMsg (s : State) : (clearLink s).nvMsg = s.nvMsg := rfl
@[simp] theorem clearLink_arg (s : State) : (clearLink s).arg = s.arg := rfl
@[simp] theorem clearLink_rxin (s : State) : (clearLink s).rxin = s.rxin := rfl
@[simp] theorem clearLink_txout (s : State) : (clearLink s).txout = s.txout := rfl
@[simp] theorem clearLink_params (s : State) : (clearLink s).params = s.params := rfl
@[simp] theorem clearLink_epoch (s : State) : (clearLink s).epoch = s.epoch := rfl
@[simp] theorem clearLink_moves (s : State) : (clearLink s).moves = s.moves := rfl

/-! ### R15: writing OBUF -/

@[simp] theorem writeObuf_ilen (i : Nat) (bs : List Byte) (s : State) : (s.writeObuf i bs).ilen = s.ilen := rfl
@[simp] theorem writeObuf_olen (i : Nat) (bs : List Byte) (s : State) : (s.writeObuf i bs).olen = s.olen := rfl
@[simp] theorem writeObuf_rlen (i : Nat) (bs : List Byte) (s : State) : (s.writeObuf i bs).rlen = s.rlen := rfl
@[simp] theorem writeObuf_rseq (i : Nat) (bs : List Byte) (s : State) : (s.writeObuf i bs).rseq = s.rseq := rfl
@[simp] theorem writeObuf_rcrc (i : Nat) (bs : List Byte) (s : State) : (s.writeObuf i bs).rcrc = s.rcrc := rfl
@[simp] theorem writeObuf_rdst (i : Nat) (bs : List Byte) (s : State) : (s.writeObuf i bs).rdst = s.rdst := rfl
@[simp] theorem writeObuf_rsrc (i : Nat) (bs : List Byte) (s : State) : (s.writeObuf i bs).rsrc = s.rsrc := rfl
@[simp] theorem writeObuf_rflg (i : Nat) (bs : List Byte) (s : State) : (s.writeObuf i bs).rflg = s.rflg := rfl
@[simp] theorem writeObuf_rboot (i : Nat) (bs : List Byte) (s : State) : (s.writeObuf i bs).rboot = s.rboot := rfl
@[simp] theorem writeObuf_rmsg (i : Nat) (bs : List Byte) (s : State) : (s.writeObuf i bs).rmsg = s.rmsg := rfl
@[simp] theorem writeObuf_err (i : Nat) (bs : List Byte) (s : State) : (s.writeObuf i bs).err = s.err := rfl
@[simp] theorem writeObuf_authOk (i : Nat) (bs : List Byte) (s : State) : (s.writeObuf i bs).authOk = s.authOk := rfl
@[simp] theorem writeObuf_authWarn (i : Nat) (bs : List Byte) (s : State) : (s.writeObuf i bs).authWarn = s.authWarn := rfl
@[simp] theorem writeObuf_footerValid (i : Nat) (bs : List Byte) (s : State) : (s.writeObuf i bs).footerValid = s.footerValid := rfl
@[simp] theorem writeObuf_bootAnomaly (i : Nat) (bs : List Byte) (s : State) : (s.writeObuf i bs).bootAnomaly = s.bootAnomaly := rfl
@[simp] theorem writeObuf_cfg (i : Nat) (bs : List Byte) (s : State) : (s.writeObuf i bs).cfg = s.cfg := rfl
@[simp] theorem writeObuf_lstate (i : Nat) (bs : List Byte) (s : State) : (s.writeObuf i bs).lstate = s.lstate := rfl
@[simp] theorem writeObuf_lresult (i : Nat) (bs : List Byte) (s : State) : (s.writeObuf i bs).lresult = s.lresult := rfl
@[simp] theorem writeObuf_lcause (i : Nat) (bs : List Byte) (s : State) : (s.writeObuf i bs).lcause = s.lcause := rfl
@[simp] theorem writeObuf_syncCnt (i : Nat) (bs : List Byte) (s : State) : (s.writeObuf i bs).syncCnt = s.syncCnt := rfl
@[simp] theorem writeObuf_missCnt (i : Nat) (bs : List Byte) (s : State) : (s.writeObuf i bs).missCnt = s.missCnt := rfl
@[simp] theorem writeObuf_txTries (i : Nat) (bs : List Byte) (s : State) : (s.writeObuf i bs).txTries = s.txTries := rfl
@[simp] theorem writeObuf_byteIdx (i : Nat) (bs : List Byte) (s : State) : (s.writeObuf i bs).byteIdx = s.byteIdx := rfl
@[simp] theorem writeObuf_lexp (i : Nat) (bs : List Byte) (s : State) : (s.writeObuf i bs).lexp = s.lexp := rfl
@[simp] theorem writeObuf_lact (i : Nat) (bs : List Byte) (s : State) : (s.writeObuf i bs).lact = s.lact := rfl
@[simp] theorem writeObuf_hbuf (i : Nat) (bs : List Byte) (s : State) : (s.writeObuf i bs).hbuf = s.hbuf := rfl
@[simp] theorem writeObuf_bootCount (i : Nat) (bs : List Byte) (s : State) : (s.writeObuf i bs).bootCount = s.bootCount := rfl
@[simp] theorem writeObuf_msgId (i : Nat) (bs : List Byte) (s : State) : (s.writeObuf i bs).msgId = s.msgId := rfl
@[simp] theorem writeObuf_ibuf (i : Nat) (bs : List Byte) (s : State) : (s.writeObuf i bs).ibuf = s.ibuf := rfl
@[simp] theorem writeObuf_obuf (i : Nat) (bs : List Byte) (s : State) : (s.writeObuf i bs).obuf = s.obuf.store i bs := rfl
@[simp] theorem writeObuf_nvBoot (i : Nat) (bs : List Byte) (s : State) : (s.writeObuf i bs).nvBoot = s.nvBoot := rfl
@[simp] theorem writeObuf_nvMsg (i : Nat) (bs : List Byte) (s : State) : (s.writeObuf i bs).nvMsg = s.nvMsg := rfl
@[simp] theorem writeObuf_arg (i : Nat) (bs : List Byte) (s : State) : (s.writeObuf i bs).arg = s.arg := rfl
@[simp] theorem writeObuf_rxin (i : Nat) (bs : List Byte) (s : State) : (s.writeObuf i bs).rxin = s.rxin := rfl
@[simp] theorem writeObuf_txout (i : Nat) (bs : List Byte) (s : State) : (s.writeObuf i bs).txout = s.txout := rfl
@[simp] theorem writeObuf_params (i : Nat) (bs : List Byte) (s : State) : (s.writeObuf i bs).params = s.params := rfl
@[simp] theorem writeObuf_epoch (i : Nat) (bs : List Byte) (s : State) : (s.writeObuf i bs).epoch = s.epoch := rfl
@[simp] theorem writeObuf_moves (i : Nat) (bs : List Byte) (s : State) : (s.writeObuf i bs).moves = s.moves := rfl

/-! ### R57: writing IBUF -/

@[simp] theorem writeIbuf_ilen (i : Nat) (bs : List Byte) (s : State) : (s.writeIbuf i bs).ilen = s.ilen := rfl
@[simp] theorem writeIbuf_olen (i : Nat) (bs : List Byte) (s : State) : (s.writeIbuf i bs).olen = s.olen := rfl
@[simp] theorem writeIbuf_rlen (i : Nat) (bs : List Byte) (s : State) : (s.writeIbuf i bs).rlen = s.rlen := rfl
@[simp] theorem writeIbuf_rseq (i : Nat) (bs : List Byte) (s : State) : (s.writeIbuf i bs).rseq = s.rseq := rfl
@[simp] theorem writeIbuf_rcrc (i : Nat) (bs : List Byte) (s : State) : (s.writeIbuf i bs).rcrc = s.rcrc := rfl
@[simp] theorem writeIbuf_rdst (i : Nat) (bs : List Byte) (s : State) : (s.writeIbuf i bs).rdst = s.rdst := rfl
@[simp] theorem writeIbuf_rsrc (i : Nat) (bs : List Byte) (s : State) : (s.writeIbuf i bs).rsrc = s.rsrc := rfl
@[simp] theorem writeIbuf_rflg (i : Nat) (bs : List Byte) (s : State) : (s.writeIbuf i bs).rflg = s.rflg := rfl
@[simp] theorem writeIbuf_rboot (i : Nat) (bs : List Byte) (s : State) : (s.writeIbuf i bs).rboot = s.rboot := rfl
@[simp] theorem writeIbuf_rmsg (i : Nat) (bs : List Byte) (s : State) : (s.writeIbuf i bs).rmsg = s.rmsg := rfl
@[simp] theorem writeIbuf_err (i : Nat) (bs : List Byte) (s : State) : (s.writeIbuf i bs).err = s.err := rfl
@[simp] theorem writeIbuf_authOk (i : Nat) (bs : List Byte) (s : State) : (s.writeIbuf i bs).authOk = s.authOk := rfl
@[simp] theorem writeIbuf_authWarn (i : Nat) (bs : List Byte) (s : State) : (s.writeIbuf i bs).authWarn = s.authWarn := rfl
@[simp] theorem writeIbuf_footerValid (i : Nat) (bs : List Byte) (s : State) : (s.writeIbuf i bs).footerValid = s.footerValid := rfl
@[simp] theorem writeIbuf_bootAnomaly (i : Nat) (bs : List Byte) (s : State) : (s.writeIbuf i bs).bootAnomaly = s.bootAnomaly := rfl
@[simp] theorem writeIbuf_cfg (i : Nat) (bs : List Byte) (s : State) : (s.writeIbuf i bs).cfg = s.cfg := rfl
@[simp] theorem writeIbuf_lstate (i : Nat) (bs : List Byte) (s : State) : (s.writeIbuf i bs).lstate = s.lstate := rfl
@[simp] theorem writeIbuf_lresult (i : Nat) (bs : List Byte) (s : State) : (s.writeIbuf i bs).lresult = s.lresult := rfl
@[simp] theorem writeIbuf_lcause (i : Nat) (bs : List Byte) (s : State) : (s.writeIbuf i bs).lcause = s.lcause := rfl
@[simp] theorem writeIbuf_syncCnt (i : Nat) (bs : List Byte) (s : State) : (s.writeIbuf i bs).syncCnt = s.syncCnt := rfl
@[simp] theorem writeIbuf_missCnt (i : Nat) (bs : List Byte) (s : State) : (s.writeIbuf i bs).missCnt = s.missCnt := rfl
@[simp] theorem writeIbuf_txTries (i : Nat) (bs : List Byte) (s : State) : (s.writeIbuf i bs).txTries = s.txTries := rfl
@[simp] theorem writeIbuf_byteIdx (i : Nat) (bs : List Byte) (s : State) : (s.writeIbuf i bs).byteIdx = s.byteIdx := rfl
@[simp] theorem writeIbuf_lexp (i : Nat) (bs : List Byte) (s : State) : (s.writeIbuf i bs).lexp = s.lexp := rfl
@[simp] theorem writeIbuf_lact (i : Nat) (bs : List Byte) (s : State) : (s.writeIbuf i bs).lact = s.lact := rfl
@[simp] theorem writeIbuf_hbuf (i : Nat) (bs : List Byte) (s : State) : (s.writeIbuf i bs).hbuf = s.hbuf := rfl
@[simp] theorem writeIbuf_bootCount (i : Nat) (bs : List Byte) (s : State) : (s.writeIbuf i bs).bootCount = s.bootCount := rfl
@[simp] theorem writeIbuf_msgId (i : Nat) (bs : List Byte) (s : State) : (s.writeIbuf i bs).msgId = s.msgId := rfl
@[simp] theorem writeIbuf_ibuf (i : Nat) (bs : List Byte) (s : State) : (s.writeIbuf i bs).ibuf = s.ibuf.store i bs := rfl
@[simp] theorem writeIbuf_obuf (i : Nat) (bs : List Byte) (s : State) : (s.writeIbuf i bs).obuf = s.obuf := rfl
@[simp] theorem writeIbuf_nvBoot (i : Nat) (bs : List Byte) (s : State) : (s.writeIbuf i bs).nvBoot = s.nvBoot := rfl
@[simp] theorem writeIbuf_nvMsg (i : Nat) (bs : List Byte) (s : State) : (s.writeIbuf i bs).nvMsg = s.nvMsg := rfl
@[simp] theorem writeIbuf_arg (i : Nat) (bs : List Byte) (s : State) : (s.writeIbuf i bs).arg = s.arg := rfl
@[simp] theorem writeIbuf_rxin (i : Nat) (bs : List Byte) (s : State) : (s.writeIbuf i bs).rxin = s.rxin := rfl
@[simp] theorem writeIbuf_txout (i : Nat) (bs : List Byte) (s : State) : (s.writeIbuf i bs).txout = s.txout := rfl
@[simp] theorem writeIbuf_params (i : Nat) (bs : List Byte) (s : State) : (s.writeIbuf i bs).params = s.params := rfl
@[simp] theorem writeIbuf_epoch (i : Nat) (bs : List Byte) (s : State) : (s.writeIbuf i bs).epoch = s.epoch := rfl
@[simp] theorem writeIbuf_moves (i : Nat) (bs : List Byte) (s : State) : (s.writeIbuf i bs).moves = s.moves := rfl

/-! ### R24 to R26: decoded fields -/

@[simp] theorem setFields_ilen (f : HdrFields) (s : State) : (setFields f s).ilen = s.ilen := rfl
@[simp] theorem setFields_olen (f : HdrFields) (s : State) : (setFields f s).olen = s.olen := rfl
@[simp] theorem setFields_rlen (f : HdrFields) (s : State) : (setFields f s).rlen = f.length := rfl
@[simp] theorem setFields_rseq (f : HdrFields) (s : State) : (setFields f s).rseq = f.sequence := rfl
@[simp] theorem setFields_rcrc (f : HdrFields) (s : State) : (setFields f s).rcrc = f.crc := rfl
@[simp] theorem setFields_rdst (f : HdrFields) (s : State) : (setFields f s).rdst = s.rdst := rfl
@[simp] theorem setFields_rsrc (f : HdrFields) (s : State) : (setFields f s).rsrc = s.rsrc := rfl
@[simp] theorem setFields_rflg (f : HdrFields) (s : State) : (setFields f s).rflg = s.rflg := rfl
@[simp] theorem setFields_rboot (f : HdrFields) (s : State) : (setFields f s).rboot = s.rboot := rfl
@[simp] theorem setFields_rmsg (f : HdrFields) (s : State) : (setFields f s).rmsg = s.rmsg := rfl
@[simp] theorem setFields_err (f : HdrFields) (s : State) : (setFields f s).err = s.err := rfl
@[simp] theorem setFields_authOk (f : HdrFields) (s : State) : (setFields f s).authOk = s.authOk := rfl
@[simp] theorem setFields_authWarn (f : HdrFields) (s : State) : (setFields f s).authWarn = s.authWarn := rfl
@[simp] theorem setFields_footerValid (f : HdrFields) (s : State) : (setFields f s).footerValid = s.footerValid := rfl
@[simp] theorem setFields_bootAnomaly (f : HdrFields) (s : State) : (setFields f s).bootAnomaly = s.bootAnomaly := rfl
@[simp] theorem setFields_cfg (f : HdrFields) (s : State) : (setFields f s).cfg = s.cfg := rfl
@[simp] theorem setFields_lstate (f : HdrFields) (s : State) : (setFields f s).lstate = s.lstate := rfl
@[simp] theorem setFields_lresult (f : HdrFields) (s : State) : (setFields f s).lresult = s.lresult := rfl
@[simp] theorem setFields_lcause (f : HdrFields) (s : State) : (setFields f s).lcause = s.lcause := rfl
@[simp] theorem setFields_syncCnt (f : HdrFields) (s : State) : (setFields f s).syncCnt = s.syncCnt := rfl
@[simp] theorem setFields_missCnt (f : HdrFields) (s : State) : (setFields f s).missCnt = s.missCnt := rfl
@[simp] theorem setFields_txTries (f : HdrFields) (s : State) : (setFields f s).txTries = s.txTries := rfl
@[simp] theorem setFields_byteIdx (f : HdrFields) (s : State) : (setFields f s).byteIdx = s.byteIdx := rfl
@[simp] theorem setFields_lexp (f : HdrFields) (s : State) : (setFields f s).lexp = s.lexp := rfl
@[simp] theorem setFields_lact (f : HdrFields) (s : State) : (setFields f s).lact = s.lact := rfl
@[simp] theorem setFields_hbuf (f : HdrFields) (s : State) : (setFields f s).hbuf = s.hbuf := rfl
@[simp] theorem setFields_bootCount (f : HdrFields) (s : State) : (setFields f s).bootCount = s.bootCount := rfl
@[simp] theorem setFields_msgId (f : HdrFields) (s : State) : (setFields f s).msgId = s.msgId := rfl
@[simp] theorem setFields_ibuf (f : HdrFields) (s : State) : (setFields f s).ibuf = s.ibuf := rfl
@[simp] theorem setFields_obuf (f : HdrFields) (s : State) : (setFields f s).obuf = s.obuf := rfl
@[simp] theorem setFields_nvBoot (f : HdrFields) (s : State) : (setFields f s).nvBoot = s.nvBoot := rfl
@[simp] theorem setFields_nvMsg (f : HdrFields) (s : State) : (setFields f s).nvMsg = s.nvMsg := rfl
@[simp] theorem setFields_arg (f : HdrFields) (s : State) : (setFields f s).arg = s.arg := rfl
@[simp] theorem setFields_rxin (f : HdrFields) (s : State) : (setFields f s).rxin = s.rxin := rfl
@[simp] theorem setFields_txout (f : HdrFields) (s : State) : (setFields f s).txout = s.txout := rfl
@[simp] theorem setFields_params (f : HdrFields) (s : State) : (setFields f s).params = s.params := rfl
@[simp] theorem setFields_epoch (f : HdrFields) (s : State) : (setFields f s).epoch = s.epoch := rfl
@[simp] theorem setFields_moves (f : HdrFields) (s : State) : (setFields f s).moves = s.moves := rfl

/-! ### R111, R115, R131: encoded fields -/

@[simp] theorem setEncoded_ilen (q : Half) (s : State) : (setEncoded q s).ilen = s.ilen := rfl
@[simp] theorem setEncoded_olen (q : Half) (s : State) : (setEncoded q s).olen = s.olen := rfl
@[simp] theorem setEncoded_rlen (q : Half) (s : State) : (setEncoded q s).rlen = s.ilen := rfl
@[simp] theorem setEncoded_rseq (q : Half) (s : State) : (setEncoded q s).rseq = q := rfl
@[simp] theorem setEncoded_rcrc (q : Half) (s : State) : (setEncoded q s).rcrc = Config.crc32 (input s) := rfl
@[simp] theorem setEncoded_rdst (q : Half) (s : State) : (setEncoded q s).rdst = s.rdst := rfl
@[simp] theorem setEncoded_rsrc (q : Half) (s : State) : (setEncoded q s).rsrc = s.rsrc := rfl
@[simp] theorem setEncoded_rflg (q : Half) (s : State) : (setEncoded q s).rflg = s.rflg := rfl
@[simp] theorem setEncoded_rboot (q : Half) (s : State) : (setEncoded q s).rboot = s.rboot := rfl
@[simp] theorem setEncoded_rmsg (q : Half) (s : State) : (setEncoded q s).rmsg = s.rmsg := rfl
@[simp] theorem setEncoded_err (q : Half) (s : State) : (setEncoded q s).err = s.err := rfl
@[simp] theorem setEncoded_authOk (q : Half) (s : State) : (setEncoded q s).authOk = s.authOk := rfl
@[simp] theorem setEncoded_authWarn (q : Half) (s : State) : (setEncoded q s).authWarn = s.authWarn := rfl
@[simp] theorem setEncoded_footerValid (q : Half) (s : State) : (setEncoded q s).footerValid = s.footerValid := rfl
@[simp] theorem setEncoded_bootAnomaly (q : Half) (s : State) : (setEncoded q s).bootAnomaly = s.bootAnomaly := rfl
@[simp] theorem setEncoded_cfg (q : Half) (s : State) : (setEncoded q s).cfg = s.cfg := rfl
@[simp] theorem setEncoded_lstate (q : Half) (s : State) : (setEncoded q s).lstate = s.lstate := rfl
@[simp] theorem setEncoded_lresult (q : Half) (s : State) : (setEncoded q s).lresult = s.lresult := rfl
@[simp] theorem setEncoded_lcause (q : Half) (s : State) : (setEncoded q s).lcause = s.lcause := rfl
@[simp] theorem setEncoded_syncCnt (q : Half) (s : State) : (setEncoded q s).syncCnt = s.syncCnt := rfl
@[simp] theorem setEncoded_missCnt (q : Half) (s : State) : (setEncoded q s).missCnt = s.missCnt := rfl
@[simp] theorem setEncoded_txTries (q : Half) (s : State) : (setEncoded q s).txTries = s.txTries := rfl
@[simp] theorem setEncoded_byteIdx (q : Half) (s : State) : (setEncoded q s).byteIdx = s.byteIdx := rfl
@[simp] theorem setEncoded_lexp (q : Half) (s : State) : (setEncoded q s).lexp = s.lexp := rfl
@[simp] theorem setEncoded_lact (q : Half) (s : State) : (setEncoded q s).lact = s.lact := rfl
@[simp] theorem setEncoded_hbuf (q : Half) (s : State) : (setEncoded q s).hbuf = s.hbuf := rfl
@[simp] theorem setEncoded_bootCount (q : Half) (s : State) : (setEncoded q s).bootCount = s.bootCount := rfl
@[simp] theorem setEncoded_msgId (q : Half) (s : State) : (setEncoded q s).msgId = s.msgId := rfl
@[simp] theorem setEncoded_ibuf (q : Half) (s : State) : (setEncoded q s).ibuf = s.ibuf := rfl
@[simp] theorem setEncoded_obuf (q : Half) (s : State) : (setEncoded q s).obuf = s.obuf := rfl
@[simp] theorem setEncoded_nvBoot (q : Half) (s : State) : (setEncoded q s).nvBoot = s.nvBoot := rfl
@[simp] theorem setEncoded_nvMsg (q : Half) (s : State) : (setEncoded q s).nvMsg = s.nvMsg := rfl
@[simp] theorem setEncoded_arg (q : Half) (s : State) : (setEncoded q s).arg = s.arg := rfl
@[simp] theorem setEncoded_rxin (q : Half) (s : State) : (setEncoded q s).rxin = s.rxin := rfl
@[simp] theorem setEncoded_txout (q : Half) (s : State) : (setEncoded q s).txout = s.txout := rfl
@[simp] theorem setEncoded_params (q : Half) (s : State) : (setEncoded q s).params = s.params := rfl
@[simp] theorem setEncoded_epoch (q : Half) (s : State) : (setEncoded q s).epoch = s.epoch := rfl
@[simp] theorem setEncoded_moves (q : Half) (s : State) : (setEncoded q s).moves = s.moves := rfl

/-! ### R212: clearing the result flags -/

@[simp] theorem clearParseFlags_ilen (s : State) : (clearParseFlags s).ilen = s.ilen := rfl
@[simp] theorem clearParseFlags_olen (s : State) : (clearParseFlags s).olen = s.olen := rfl
@[simp] theorem clearParseFlags_rlen (s : State) : (clearParseFlags s).rlen = s.rlen := rfl
@[simp] theorem clearParseFlags_rseq (s : State) : (clearParseFlags s).rseq = s.rseq := rfl
@[simp] theorem clearParseFlags_rcrc (s : State) : (clearParseFlags s).rcrc = s.rcrc := rfl
@[simp] theorem clearParseFlags_rdst (s : State) : (clearParseFlags s).rdst = s.rdst := rfl
@[simp] theorem clearParseFlags_rsrc (s : State) : (clearParseFlags s).rsrc = s.rsrc := rfl
@[simp] theorem clearParseFlags_rflg (s : State) : (clearParseFlags s).rflg = s.rflg := rfl
@[simp] theorem clearParseFlags_rboot (s : State) : (clearParseFlags s).rboot = s.rboot := rfl
@[simp] theorem clearParseFlags_rmsg (s : State) : (clearParseFlags s).rmsg = s.rmsg := rfl
@[simp] theorem clearParseFlags_err (s : State) : (clearParseFlags s).err = s.err := rfl
@[simp] theorem clearParseFlags_authOk (s : State) : (clearParseFlags s).authOk = false := rfl
@[simp] theorem clearParseFlags_authWarn (s : State) : (clearParseFlags s).authWarn = false := rfl
@[simp] theorem clearParseFlags_footerValid (s : State) : (clearParseFlags s).footerValid = false := rfl
@[simp] theorem clearParseFlags_bootAnomaly (s : State) : (clearParseFlags s).bootAnomaly = s.bootAnomaly := rfl
@[simp] theorem clearParseFlags_cfg (s : State) : (clearParseFlags s).cfg = s.cfg := rfl
@[simp] theorem clearParseFlags_lstate (s : State) : (clearParseFlags s).lstate = s.lstate := rfl
@[simp] theorem clearParseFlags_lresult (s : State) : (clearParseFlags s).lresult = s.lresult := rfl
@[simp] theorem clearParseFlags_lcause (s : State) : (clearParseFlags s).lcause = s.lcause := rfl
@[simp] theorem clearParseFlags_syncCnt (s : State) : (clearParseFlags s).syncCnt = s.syncCnt := rfl
@[simp] theorem clearParseFlags_missCnt (s : State) : (clearParseFlags s).missCnt = s.missCnt := rfl
@[simp] theorem clearParseFlags_txTries (s : State) : (clearParseFlags s).txTries = s.txTries := rfl
@[simp] theorem clearParseFlags_byteIdx (s : State) : (clearParseFlags s).byteIdx = s.byteIdx := rfl
@[simp] theorem clearParseFlags_lexp (s : State) : (clearParseFlags s).lexp = s.lexp := rfl
@[simp] theorem clearParseFlags_lact (s : State) : (clearParseFlags s).lact = s.lact := rfl
@[simp] theorem clearParseFlags_hbuf (s : State) : (clearParseFlags s).hbuf = s.hbuf := rfl
@[simp] theorem clearParseFlags_bootCount (s : State) : (clearParseFlags s).bootCount = s.bootCount := rfl
@[simp] theorem clearParseFlags_msgId (s : State) : (clearParseFlags s).msgId = s.msgId := rfl
@[simp] theorem clearParseFlags_ibuf (s : State) : (clearParseFlags s).ibuf = s.ibuf := rfl
@[simp] theorem clearParseFlags_obuf (s : State) : (clearParseFlags s).obuf = s.obuf := rfl
@[simp] theorem clearParseFlags_nvBoot (s : State) : (clearParseFlags s).nvBoot = s.nvBoot := rfl
@[simp] theorem clearParseFlags_nvMsg (s : State) : (clearParseFlags s).nvMsg = s.nvMsg := rfl
@[simp] theorem clearParseFlags_arg (s : State) : (clearParseFlags s).arg = s.arg := rfl
@[simp] theorem clearParseFlags_rxin (s : State) : (clearParseFlags s).rxin = s.rxin := rfl
@[simp] theorem clearParseFlags_txout (s : State) : (clearParseFlags s).txout = s.txout := rfl
@[simp] theorem clearParseFlags_params (s : State) : (clearParseFlags s).params = s.params := rfl
@[simp] theorem clearParseFlags_epoch (s : State) : (clearParseFlags s).epoch = s.epoch := rfl
@[simp] theorem clearParseFlags_moves (s : State) : (clearParseFlags s).moves = s.moves := rfl

/-! ### R31: setting the result flags -/

@[simp] theorem setParseFlags_ilen (e k : Bool) (s : State) : (setParseFlags e k s).ilen = s.ilen := rfl
@[simp] theorem setParseFlags_olen (e k : Bool) (s : State) : (setParseFlags e k s).olen = s.olen := rfl
@[simp] theorem setParseFlags_rlen (e k : Bool) (s : State) : (setParseFlags e k s).rlen = s.rlen := rfl
@[simp] theorem setParseFlags_rseq (e k : Bool) (s : State) : (setParseFlags e k s).rseq = s.rseq := rfl
@[simp] theorem setParseFlags_rcrc (e k : Bool) (s : State) : (setParseFlags e k s).rcrc = s.rcrc := rfl
@[simp] theorem setParseFlags_rdst (e k : Bool) (s : State) : (setParseFlags e k s).rdst = s.rdst := rfl
@[simp] theorem setParseFlags_rsrc (e k : Bool) (s : State) : (setParseFlags e k s).rsrc = s.rsrc := rfl
@[simp] theorem setParseFlags_rflg (e k : Bool) (s : State) : (setParseFlags e k s).rflg = s.rflg := rfl
@[simp] theorem setParseFlags_rboot (e k : Bool) (s : State) : (setParseFlags e k s).rboot = s.rboot := rfl
@[simp] theorem setParseFlags_rmsg (e k : Bool) (s : State) : (setParseFlags e k s).rmsg = s.rmsg := rfl
@[simp] theorem setParseFlags_err (e k : Bool) (s : State) : (setParseFlags e k s).err = s.err := rfl
@[simp] theorem setParseFlags_authOk (e k : Bool) (s : State) : (setParseFlags e k s).authOk = (e && k) := rfl
@[simp] theorem setParseFlags_authWarn (e k : Bool) (s : State) : (setParseFlags e k s).authWarn = (e && !k) := rfl
@[simp] theorem setParseFlags_footerValid (e k : Bool) (s : State) : (setParseFlags e k s).footerValid = (e && k) := rfl
@[simp] theorem setParseFlags_bootAnomaly (e k : Bool) (s : State) : (setParseFlags e k s).bootAnomaly = s.bootAnomaly := rfl
@[simp] theorem setParseFlags_cfg (e k : Bool) (s : State) : (setParseFlags e k s).cfg = s.cfg := rfl
@[simp] theorem setParseFlags_lstate (e k : Bool) (s : State) : (setParseFlags e k s).lstate = s.lstate := rfl
@[simp] theorem setParseFlags_lresult (e k : Bool) (s : State) : (setParseFlags e k s).lresult = s.lresult := rfl
@[simp] theorem setParseFlags_lcause (e k : Bool) (s : State) : (setParseFlags e k s).lcause = s.lcause := rfl
@[simp] theorem setParseFlags_syncCnt (e k : Bool) (s : State) : (setParseFlags e k s).syncCnt = s.syncCnt := rfl
@[simp] theorem setParseFlags_missCnt (e k : Bool) (s : State) : (setParseFlags e k s).missCnt = s.missCnt := rfl
@[simp] theorem setParseFlags_txTries (e k : Bool) (s : State) : (setParseFlags e k s).txTries = s.txTries := rfl
@[simp] theorem setParseFlags_byteIdx (e k : Bool) (s : State) : (setParseFlags e k s).byteIdx = s.byteIdx := rfl
@[simp] theorem setParseFlags_lexp (e k : Bool) (s : State) : (setParseFlags e k s).lexp = s.lexp := rfl
@[simp] theorem setParseFlags_lact (e k : Bool) (s : State) : (setParseFlags e k s).lact = s.lact := rfl
@[simp] theorem setParseFlags_hbuf (e k : Bool) (s : State) : (setParseFlags e k s).hbuf = s.hbuf := rfl
@[simp] theorem setParseFlags_bootCount (e k : Bool) (s : State) : (setParseFlags e k s).bootCount = s.bootCount := rfl
@[simp] theorem setParseFlags_msgId (e k : Bool) (s : State) : (setParseFlags e k s).msgId = s.msgId := rfl
@[simp] theorem setParseFlags_ibuf (e k : Bool) (s : State) : (setParseFlags e k s).ibuf = s.ibuf := rfl
@[simp] theorem setParseFlags_obuf (e k : Bool) (s : State) : (setParseFlags e k s).obuf = s.obuf := rfl
@[simp] theorem setParseFlags_nvBoot (e k : Bool) (s : State) : (setParseFlags e k s).nvBoot = s.nvBoot := rfl
@[simp] theorem setParseFlags_nvMsg (e k : Bool) (s : State) : (setParseFlags e k s).nvMsg = s.nvMsg := rfl
@[simp] theorem setParseFlags_arg (e k : Bool) (s : State) : (setParseFlags e k s).arg = s.arg := rfl
@[simp] theorem setParseFlags_rxin (e k : Bool) (s : State) : (setParseFlags e k s).rxin = s.rxin := rfl
@[simp] theorem setParseFlags_txout (e k : Bool) (s : State) : (setParseFlags e k s).txout = s.txout := rfl
@[simp] theorem setParseFlags_params (e k : Bool) (s : State) : (setParseFlags e k s).params = s.params := rfl
@[simp] theorem setParseFlags_epoch (e k : Bool) (s : State) : (setParseFlags e k s).epoch = s.epoch := rfl
@[simp] theorem setParseFlags_moves (e k : Bool) (s : State) : (setParseFlags e k s).moves = s.moves := rfl

/-! ### R32: flagging the anomaly -/

@[simp] theorem flagAnomaly_ilen (s : State) : (flagAnomaly s).ilen = s.ilen := rfl
@[simp] theorem flagAnomaly_olen (s : State) : (flagAnomaly s).olen = s.olen := rfl
@[simp] theorem flagAnomaly_rlen (s : State) : (flagAnomaly s).rlen = s.rlen := rfl
@[simp] theorem flagAnomaly_rseq (s : State) : (flagAnomaly s).rseq = s.rseq := rfl
@[simp] theorem flagAnomaly_rcrc (s : State) : (flagAnomaly s).rcrc = s.rcrc := rfl
@[simp] theorem flagAnomaly_rdst (s : State) : (flagAnomaly s).rdst = s.rdst := rfl
@[simp] theorem flagAnomaly_rsrc (s : State) : (flagAnomaly s).rsrc = s.rsrc := rfl
@[simp] theorem flagAnomaly_rflg (s : State) : (flagAnomaly s).rflg = s.rflg := rfl
@[simp] theorem flagAnomaly_rboot (s : State) : (flagAnomaly s).rboot = s.rboot := rfl
@[simp] theorem flagAnomaly_rmsg (s : State) : (flagAnomaly s).rmsg = s.rmsg := rfl
@[simp] theorem flagAnomaly_err (s : State) : (flagAnomaly s).err = s.err := rfl
@[simp] theorem flagAnomaly_authOk (s : State) : (flagAnomaly s).authOk = s.authOk := rfl
@[simp] theorem flagAnomaly_authWarn (s : State) : (flagAnomaly s).authWarn = s.authWarn := rfl
@[simp] theorem flagAnomaly_footerValid (s : State) : (flagAnomaly s).footerValid = s.footerValid := rfl
@[simp] theorem flagAnomaly_bootAnomaly (s : State) : (flagAnomaly s).bootAnomaly = true := rfl
@[simp] theorem flagAnomaly_cfg (s : State) : (flagAnomaly s).cfg = s.cfg := rfl
@[simp] theorem flagAnomaly_lstate (s : State) : (flagAnomaly s).lstate = s.lstate := rfl
@[simp] theorem flagAnomaly_lresult (s : State) : (flagAnomaly s).lresult = s.lresult := rfl
@[simp] theorem flagAnomaly_lcause (s : State) : (flagAnomaly s).lcause = s.lcause := rfl
@[simp] theorem flagAnomaly_syncCnt (s : State) : (flagAnomaly s).syncCnt = s.syncCnt := rfl
@[simp] theorem flagAnomaly_missCnt (s : State) : (flagAnomaly s).missCnt = s.missCnt := rfl
@[simp] theorem flagAnomaly_txTries (s : State) : (flagAnomaly s).txTries = s.txTries := rfl
@[simp] theorem flagAnomaly_byteIdx (s : State) : (flagAnomaly s).byteIdx = s.byteIdx := rfl
@[simp] theorem flagAnomaly_lexp (s : State) : (flagAnomaly s).lexp = s.lexp := rfl
@[simp] theorem flagAnomaly_lact (s : State) : (flagAnomaly s).lact = s.lact := rfl
@[simp] theorem flagAnomaly_hbuf (s : State) : (flagAnomaly s).hbuf = s.hbuf := rfl
@[simp] theorem flagAnomaly_bootCount (s : State) : (flagAnomaly s).bootCount = s.bootCount := rfl
@[simp] theorem flagAnomaly_msgId (s : State) : (flagAnomaly s).msgId = s.msgId := rfl
@[simp] theorem flagAnomaly_ibuf (s : State) : (flagAnomaly s).ibuf = s.ibuf := rfl
@[simp] theorem flagAnomaly_obuf (s : State) : (flagAnomaly s).obuf = s.obuf := rfl
@[simp] theorem flagAnomaly_nvBoot (s : State) : (flagAnomaly s).nvBoot = s.nvBoot := rfl
@[simp] theorem flagAnomaly_nvMsg (s : State) : (flagAnomaly s).nvMsg = s.nvMsg := rfl
@[simp] theorem flagAnomaly_arg (s : State) : (flagAnomaly s).arg = s.arg := rfl
@[simp] theorem flagAnomaly_rxin (s : State) : (flagAnomaly s).rxin = s.rxin := rfl
@[simp] theorem flagAnomaly_txout (s : State) : (flagAnomaly s).txout = s.txout := rfl
@[simp] theorem flagAnomaly_params (s : State) : (flagAnomaly s).params = s.params := rfl
@[simp] theorem flagAnomaly_epoch (s : State) : (flagAnomaly s).epoch = s.epoch := rfl
@[simp] theorem flagAnomaly_moves (s : State) : (flagAnomaly s).moves = s.moves := rfl

/-! ### R62: advancing the message id -/

@[simp] theorem advanceMsgId_ilen (s : State) : (advanceMsgId s).ilen = s.ilen := rfl
@[simp] theorem advanceMsgId_olen (s : State) : (advanceMsgId s).olen = s.olen := rfl
@[simp] theorem advanceMsgId_rlen (s : State) : (advanceMsgId s).rlen = s.rlen := rfl
@[simp] theorem advanceMsgId_rseq (s : State) : (advanceMsgId s).rseq = s.rseq := rfl
@[simp] theorem advanceMsgId_rcrc (s : State) : (advanceMsgId s).rcrc = s.rcrc := rfl
@[simp] theorem advanceMsgId_rdst (s : State) : (advanceMsgId s).rdst = s.rdst := rfl
@[simp] theorem advanceMsgId_rsrc (s : State) : (advanceMsgId s).rsrc = s.rsrc := rfl
@[simp] theorem advanceMsgId_rflg (s : State) : (advanceMsgId s).rflg = s.rflg := rfl
@[simp] theorem advanceMsgId_rboot (s : State) : (advanceMsgId s).rboot = s.rboot := rfl
@[simp] theorem advanceMsgId_rmsg (s : State) : (advanceMsgId s).rmsg = s.rmsg := rfl
@[simp] theorem advanceMsgId_err (s : State) : (advanceMsgId s).err = s.err := rfl
@[simp] theorem advanceMsgId_authOk (s : State) : (advanceMsgId s).authOk = s.authOk := rfl
@[simp] theorem advanceMsgId_authWarn (s : State) : (advanceMsgId s).authWarn = s.authWarn := rfl
@[simp] theorem advanceMsgId_footerValid (s : State) : (advanceMsgId s).footerValid = s.footerValid := rfl
@[simp] theorem advanceMsgId_bootAnomaly (s : State) : (advanceMsgId s).bootAnomaly = s.bootAnomaly := rfl
@[simp] theorem advanceMsgId_cfg (s : State) : (advanceMsgId s).cfg = s.cfg := rfl
@[simp] theorem advanceMsgId_lstate (s : State) : (advanceMsgId s).lstate = s.lstate := rfl
@[simp] theorem advanceMsgId_lresult (s : State) : (advanceMsgId s).lresult = s.lresult := rfl
@[simp] theorem advanceMsgId_lcause (s : State) : (advanceMsgId s).lcause = s.lcause := rfl
@[simp] theorem advanceMsgId_syncCnt (s : State) : (advanceMsgId s).syncCnt = s.syncCnt := rfl
@[simp] theorem advanceMsgId_missCnt (s : State) : (advanceMsgId s).missCnt = s.missCnt := rfl
@[simp] theorem advanceMsgId_txTries (s : State) : (advanceMsgId s).txTries = s.txTries := rfl
@[simp] theorem advanceMsgId_byteIdx (s : State) : (advanceMsgId s).byteIdx = s.byteIdx := rfl
@[simp] theorem advanceMsgId_lexp (s : State) : (advanceMsgId s).lexp = s.lexp := rfl
@[simp] theorem advanceMsgId_lact (s : State) : (advanceMsgId s).lact = s.lact := rfl
@[simp] theorem advanceMsgId_hbuf (s : State) : (advanceMsgId s).hbuf = s.hbuf := rfl
@[simp] theorem advanceMsgId_bootCount (s : State) : (advanceMsgId s).bootCount = s.bootCount := rfl
@[simp] theorem advanceMsgId_msgId (s : State) : (advanceMsgId s).msgId = s.msgId + 1 := rfl
@[simp] theorem advanceMsgId_ibuf (s : State) : (advanceMsgId s).ibuf = s.ibuf := rfl
@[simp] theorem advanceMsgId_obuf (s : State) : (advanceMsgId s).obuf = s.obuf := rfl
@[simp] theorem advanceMsgId_nvBoot (s : State) : (advanceMsgId s).nvBoot = s.nvBoot := rfl
@[simp] theorem advanceMsgId_nvMsg (s : State) : (advanceMsgId s).nvMsg = s.msgId + 1 := rfl
@[simp] theorem advanceMsgId_arg (s : State) : (advanceMsgId s).arg = s.arg := rfl
@[simp] theorem advanceMsgId_rxin (s : State) : (advanceMsgId s).rxin = s.rxin := rfl
@[simp] theorem advanceMsgId_txout (s : State) : (advanceMsgId s).txout = s.txout := rfl
@[simp] theorem advanceMsgId_params (s : State) : (advanceMsgId s).params = s.params := rfl
@[simp] theorem advanceMsgId_epoch (s : State) : (advanceMsgId s).epoch = s.epoch := rfl
@[simp] theorem advanceMsgId_moves (s : State) : (advanceMsgId s).moves = s.moves := rfl

/-! ### R62: adopting a boot count -/

@[simp] theorem adoptBootCount_ilen (v : Word) (s : State) : (adoptBootCount v s).ilen = s.ilen := rfl
@[simp] theorem adoptBootCount_olen (v : Word) (s : State) : (adoptBootCount v s).olen = s.olen := rfl
@[simp] theorem adoptBootCount_rlen (v : Word) (s : State) : (adoptBootCount v s).rlen = s.rlen := rfl
@[simp] theorem adoptBootCount_rseq (v : Word) (s : State) : (adoptBootCount v s).rseq = s.rseq := rfl
@[simp] theorem adoptBootCount_rcrc (v : Word) (s : State) : (adoptBootCount v s).rcrc = s.rcrc := rfl
@[simp] theorem adoptBootCount_rdst (v : Word) (s : State) : (adoptBootCount v s).rdst = s.rdst := rfl
@[simp] theorem adoptBootCount_rsrc (v : Word) (s : State) : (adoptBootCount v s).rsrc = s.rsrc := rfl
@[simp] theorem adoptBootCount_rflg (v : Word) (s : State) : (adoptBootCount v s).rflg = s.rflg := rfl
@[simp] theorem adoptBootCount_rboot (v : Word) (s : State) : (adoptBootCount v s).rboot = s.rboot := rfl
@[simp] theorem adoptBootCount_rmsg (v : Word) (s : State) : (adoptBootCount v s).rmsg = s.rmsg := rfl
@[simp] theorem adoptBootCount_err (v : Word) (s : State) : (adoptBootCount v s).err = s.err := rfl
@[simp] theorem adoptBootCount_authOk (v : Word) (s : State) : (adoptBootCount v s).authOk = s.authOk := rfl
@[simp] theorem adoptBootCount_authWarn (v : Word) (s : State) : (adoptBootCount v s).authWarn = s.authWarn := rfl
@[simp] theorem adoptBootCount_footerValid (v : Word) (s : State) : (adoptBootCount v s).footerValid = s.footerValid := rfl
@[simp] theorem adoptBootCount_bootAnomaly (v : Word) (s : State) : (adoptBootCount v s).bootAnomaly = s.bootAnomaly := rfl
@[simp] theorem adoptBootCount_cfg (v : Word) (s : State) : (adoptBootCount v s).cfg = s.cfg := rfl
@[simp] theorem adoptBootCount_lstate (v : Word) (s : State) : (adoptBootCount v s).lstate = s.lstate := rfl
@[simp] theorem adoptBootCount_lresult (v : Word) (s : State) : (adoptBootCount v s).lresult = s.lresult := rfl
@[simp] theorem adoptBootCount_lcause (v : Word) (s : State) : (adoptBootCount v s).lcause = s.lcause := rfl
@[simp] theorem adoptBootCount_syncCnt (v : Word) (s : State) : (adoptBootCount v s).syncCnt = s.syncCnt := rfl
@[simp] theorem adoptBootCount_missCnt (v : Word) (s : State) : (adoptBootCount v s).missCnt = s.missCnt := rfl
@[simp] theorem adoptBootCount_txTries (v : Word) (s : State) : (adoptBootCount v s).txTries = s.txTries := rfl
@[simp] theorem adoptBootCount_byteIdx (v : Word) (s : State) : (adoptBootCount v s).byteIdx = s.byteIdx := rfl
@[simp] theorem adoptBootCount_lexp (v : Word) (s : State) : (adoptBootCount v s).lexp = s.lexp := rfl
@[simp] theorem adoptBootCount_lact (v : Word) (s : State) : (adoptBootCount v s).lact = s.lact := rfl
@[simp] theorem adoptBootCount_hbuf (v : Word) (s : State) : (adoptBootCount v s).hbuf = s.hbuf := rfl
@[simp] theorem adoptBootCount_bootCount (v : Word) (s : State) : (adoptBootCount v s).bootCount = v := rfl
@[simp] theorem adoptBootCount_msgId (v : Word) (s : State) : (adoptBootCount v s).msgId = s.msgId := rfl
@[simp] theorem adoptBootCount_ibuf (v : Word) (s : State) : (adoptBootCount v s).ibuf = s.ibuf := rfl
@[simp] theorem adoptBootCount_obuf (v : Word) (s : State) : (adoptBootCount v s).obuf = s.obuf := rfl
@[simp] theorem adoptBootCount_nvBoot (v : Word) (s : State) : (adoptBootCount v s).nvBoot = v := rfl
@[simp] theorem adoptBootCount_nvMsg (v : Word) (s : State) : (adoptBootCount v s).nvMsg = s.nvMsg := rfl
@[simp] theorem adoptBootCount_arg (v : Word) (s : State) : (adoptBootCount v s).arg = s.arg := rfl
@[simp] theorem adoptBootCount_rxin (v : Word) (s : State) : (adoptBootCount v s).rxin = s.rxin := rfl
@[simp] theorem adoptBootCount_txout (v : Word) (s : State) : (adoptBootCount v s).txout = s.txout := rfl
@[simp] theorem adoptBootCount_params (v : Word) (s : State) : (adoptBootCount v s).params = s.params := rfl
@[simp] theorem adoptBootCount_epoch (v : Word) (s : State) : (adoptBootCount v s).epoch = s.epoch := rfl
@[simp] theorem adoptBootCount_moves (v : Word) (s : State) : (adoptBootCount v s).moves = s.moves := rfl

/-! ### R290: the reset step -/

@[simp] theorem resetBlock_ilen (s : State) : (resetBlock s).ilen = State.reset.ilen := rfl
@[simp] theorem resetBlock_olen (s : State) : (resetBlock s).olen = State.reset.olen := rfl
@[simp] theorem resetBlock_rlen (s : State) : (resetBlock s).rlen = State.reset.rlen := rfl
@[simp] theorem resetBlock_rseq (s : State) : (resetBlock s).rseq = State.reset.rseq := rfl
@[simp] theorem resetBlock_rcrc (s : State) : (resetBlock s).rcrc = State.reset.rcrc := rfl
@[simp] theorem resetBlock_rdst (s : State) : (resetBlock s).rdst = State.reset.rdst := rfl
@[simp] theorem resetBlock_rsrc (s : State) : (resetBlock s).rsrc = State.reset.rsrc := rfl
@[simp] theorem resetBlock_rflg (s : State) : (resetBlock s).rflg = State.reset.rflg := rfl
@[simp] theorem resetBlock_rboot (s : State) : (resetBlock s).rboot = State.reset.rboot := rfl
@[simp] theorem resetBlock_rmsg (s : State) : (resetBlock s).rmsg = State.reset.rmsg := rfl
@[simp] theorem resetBlock_err (s : State) : (resetBlock s).err = State.reset.err := rfl
@[simp] theorem resetBlock_authOk (s : State) : (resetBlock s).authOk = State.reset.authOk := rfl
@[simp] theorem resetBlock_authWarn (s : State) : (resetBlock s).authWarn = State.reset.authWarn := rfl
@[simp] theorem resetBlock_footerValid (s : State) : (resetBlock s).footerValid = State.reset.footerValid := rfl
@[simp] theorem resetBlock_bootAnomaly (s : State) : (resetBlock s).bootAnomaly = State.reset.bootAnomaly := rfl
@[simp] theorem resetBlock_cfg (s : State) : (resetBlock s).cfg = State.reset.cfg := rfl
@[simp] theorem resetBlock_lstate (s : State) : (resetBlock s).lstate = State.reset.lstate := rfl
@[simp] theorem resetBlock_lresult (s : State) : (resetBlock s).lresult = State.reset.lresult := rfl
@[simp] theorem resetBlock_lcause (s : State) : (resetBlock s).lcause = State.reset.lcause := rfl
@[simp] theorem resetBlock_syncCnt (s : State) : (resetBlock s).syncCnt = State.reset.syncCnt := rfl
@[simp] theorem resetBlock_missCnt (s : State) : (resetBlock s).missCnt = State.reset.missCnt := rfl
@[simp] theorem resetBlock_txTries (s : State) : (resetBlock s).txTries = State.reset.txTries := rfl
@[simp] theorem resetBlock_byteIdx (s : State) : (resetBlock s).byteIdx = State.reset.byteIdx := rfl
@[simp] theorem resetBlock_lexp (s : State) : (resetBlock s).lexp = State.reset.lexp := rfl
@[simp] theorem resetBlock_lact (s : State) : (resetBlock s).lact = State.reset.lact := rfl
@[simp] theorem resetBlock_hbuf (s : State) : (resetBlock s).hbuf = State.reset.hbuf := rfl
@[simp] theorem resetBlock_bootCount (s : State) : (resetBlock s).bootCount = s.nvBoot := rfl
@[simp] theorem resetBlock_msgId (s : State) : (resetBlock s).msgId = s.nvMsg := rfl
@[simp] theorem resetBlock_ibuf (s : State) : (resetBlock s).ibuf = State.reset.ibuf := rfl
@[simp] theorem resetBlock_obuf (s : State) : (resetBlock s).obuf = State.reset.obuf := rfl
@[simp] theorem resetBlock_nvBoot (s : State) : (resetBlock s).nvBoot = s.nvBoot := rfl
@[simp] theorem resetBlock_nvMsg (s : State) : (resetBlock s).nvMsg = s.nvMsg := rfl
@[simp] theorem resetBlock_arg (s : State) : (resetBlock s).arg = State.reset.arg := rfl
@[simp] theorem resetBlock_rxin (s : State) : (resetBlock s).rxin = s.rxin := rfl
@[simp] theorem resetBlock_txout (s : State) : (resetBlock s).txout = s.txout := rfl
@[simp] theorem resetBlock_params (s : State) : (resetBlock s).params = s.params := rfl
@[simp] theorem resetBlock_epoch (s : State) : (resetBlock s).epoch = s.epoch + 1 := rfl
@[simp] theorem resetBlock_moves (s : State) : (resetBlock s).moves = s.moves := rfl

/-! ### R236: loading the counters -/

@[simp] theorem loadCounters_ilen (s : State) : (loadCounters s).ilen = s.ilen := rfl
@[simp] theorem loadCounters_olen (s : State) : (loadCounters s).olen = s.olen := rfl
@[simp] theorem loadCounters_rlen (s : State) : (loadCounters s).rlen = s.rlen := rfl
@[simp] theorem loadCounters_rseq (s : State) : (loadCounters s).rseq = s.rseq := rfl
@[simp] theorem loadCounters_rcrc (s : State) : (loadCounters s).rcrc = s.rcrc := rfl
@[simp] theorem loadCounters_rdst (s : State) : (loadCounters s).rdst = s.rdst := rfl
@[simp] theorem loadCounters_rsrc (s : State) : (loadCounters s).rsrc = s.rsrc := rfl
@[simp] theorem loadCounters_rflg (s : State) : (loadCounters s).rflg = s.rflg := rfl
@[simp] theorem loadCounters_rboot (s : State) : (loadCounters s).rboot = s.rboot := rfl
@[simp] theorem loadCounters_rmsg (s : State) : (loadCounters s).rmsg = s.rmsg := rfl
@[simp] theorem loadCounters_err (s : State) : (loadCounters s).err = s.err := rfl
@[simp] theorem loadCounters_authOk (s : State) : (loadCounters s).authOk = s.authOk := rfl
@[simp] theorem loadCounters_authWarn (s : State) : (loadCounters s).authWarn = s.authWarn := rfl
@[simp] theorem loadCounters_footerValid (s : State) : (loadCounters s).footerValid = s.footerValid := rfl
@[simp] theorem loadCounters_bootAnomaly (s : State) : (loadCounters s).bootAnomaly = s.bootAnomaly := rfl
@[simp] theorem loadCounters_cfg (s : State) : (loadCounters s).cfg = s.cfg := rfl
@[simp] theorem loadCounters_lstate (s : State) : (loadCounters s).lstate = s.lstate := rfl
@[simp] theorem loadCounters_lresult (s : State) : (loadCounters s).lresult = s.lresult := rfl
@[simp] theorem loadCounters_lcause (s : State) : (loadCounters s).lcause = s.lcause := rfl
@[simp] theorem loadCounters_syncCnt (s : State) : (loadCounters s).syncCnt = s.syncCnt := rfl
@[simp] theorem loadCounters_missCnt (s : State) : (loadCounters s).missCnt = s.missCnt := rfl
@[simp] theorem loadCounters_txTries (s : State) : (loadCounters s).txTries = s.txTries := rfl
@[simp] theorem loadCounters_byteIdx (s : State) : (loadCounters s).byteIdx = s.byteIdx := rfl
@[simp] theorem loadCounters_lexp (s : State) : (loadCounters s).lexp = s.lexp := rfl
@[simp] theorem loadCounters_lact (s : State) : (loadCounters s).lact = s.lact := rfl
@[simp] theorem loadCounters_hbuf (s : State) : (loadCounters s).hbuf = s.hbuf := rfl
@[simp] theorem loadCounters_bootCount (s : State) : (loadCounters s).bootCount = s.nvBoot := rfl
@[simp] theorem loadCounters_msgId (s : State) : (loadCounters s).msgId = s.nvMsg := rfl
@[simp] theorem loadCounters_ibuf (s : State) : (loadCounters s).ibuf = s.ibuf := rfl
@[simp] theorem loadCounters_obuf (s : State) : (loadCounters s).obuf = s.obuf := rfl
@[simp] theorem loadCounters_nvBoot (s : State) : (loadCounters s).nvBoot = s.nvBoot := rfl
@[simp] theorem loadCounters_nvMsg (s : State) : (loadCounters s).nvMsg = s.nvMsg := rfl
@[simp] theorem loadCounters_arg (s : State) : (loadCounters s).arg = s.arg := rfl
@[simp] theorem loadCounters_rxin (s : State) : (loadCounters s).rxin = s.rxin := rfl
@[simp] theorem loadCounters_txout (s : State) : (loadCounters s).txout = s.txout := rfl
@[simp] theorem loadCounters_params (s : State) : (loadCounters s).params = s.params := rfl
@[simp] theorem loadCounters_epoch (s : State) : (loadCounters s).epoch = s.epoch := rfl
@[simp] theorem loadCounters_moves (s : State) : (loadCounters s).moves = s.moves := rfl

end Sys2Proof.Machine
end

