-- ==== Sys2Proof/Laws/Memory.lean ====
section
/-! SUPPORT. What a buffer's operations do: reading after a store, and that a store keeps the canonical form. -/

namespace Sys2Proof.Machine

@[simp] theorem Memory.read_nil (i : Nat) : Memory.read [] i = none := rfl

theorem Memory.read_cons (k : Nat) (b : Byte) (m : Memory) (i : Nat) :
    Memory.read ((k, b) :: m) i = if k = i then some b else Memory.read m i := rfl

/-- Reading where the first part lists nothing is reading the second part. -/
theorem Memory.read_append (m n : Memory) (i : Nat) :
    Memory.read (m ++ n) i = (Memory.read m i).or (Memory.read n i) := by
  induction m with
  | nil => simp
  | cons c m ih =>
    obtain ⟨k, b⟩ := c
    by_cases h : k = i <;> simp [Memory.read_cons, h, ih]

/-- A filter that keeps an index's cells does not change what is read there. -/
theorem Memory.read_filter_keep (m : Memory) (p : Nat → Bool) (i : Nat) (h : p i = true) :
    Memory.read (m.filter fun c => p c.1) i = Memory.read m i := by
  induction m with
  | nil => rfl
  | cons c m ih =>
    obtain ⟨k, b⟩ := c
    by_cases hk : k = i
    · subst hk; simp [h, Memory.read_cons]
    · by_cases hp : p k = true <;> simp [hp, Memory.read_cons, hk, ih]

/-- A filter that drops an index's cells leaves nothing to read there. -/
theorem Memory.read_filter_drop (m : Memory) (p : Nat → Bool) (i : Nat) (h : p i = false) :
    Memory.read (m.filter fun c => p c.1) i = none := by
  induction m with
  | nil => rfl
  | cons c m ih =>
    obtain ⟨k, b⟩ := c
    by_cases hp : p k = true
    · have hk : k ≠ i := by rintro rfl; simp [h] at hp
      simp [hp, Memory.read_cons, hk, ih]
    · simp [hp, ih]

/-- The cells of a byte string read as its bytes, at its indices alone. -/
theorem cellsAt_read (bs : List Byte) (i a : Nat) :
    Memory.read (cellsAt i bs) a = if i ≤ a then bs[a - i]? else none := by
  induction bs generalizing i with
  | nil => simp [cellsAt]
  | cons b bs ih =>
    rw [cellsAt, Memory.read_cons, ih]
    by_cases h : i = a
    · subst h; simp
    · by_cases h2 : i + 1 ≤ a
      · have : a - i = (a - (i + 1)) + 1 := by omega
        simp [h, h2, show i ≤ a by omega, this]
      · simp [h, h2, show ¬ i ≤ a by omega]

/-- Read after store: the stored bytes at their indices, every other index as before. -/
theorem Memory.read_store (m : Memory) (i : Nat) (bs : List Byte) (a : Nat) :
    (m.store i bs).read a =
      if i ≤ a ∧ a < i + bs.length then some (bs.getD (a - i) 0) else m.read a := by
  unfold Memory.store
  rw [Memory.read_append, Memory.read_append, cellsAt_read]
  by_cases h1 : i ≤ a
  · rw [Memory.read_filter_drop m (fun k => decide (k < i)) a (by simp; omega)]
    by_cases h2 : a < i + bs.length
    · have h3 : a - i < bs.length := by omega
      simp [h1, h2, List.getElem?_eq_getElem h3]
    · rw [Memory.read_filter_keep m (fun k => decide (i + bs.length ≤ k)) a (by simp; omega)]
      simp [h1, h2, List.getElem?_eq_none (show bs.length ≤ a - i by omega)]
  · rw [Memory.read_filter_keep m (fun k => decide (k < i)) a (by simp; omega),
      Memory.read_filter_drop m (fun k => decide (i + bs.length ≤ k)) a (by simp; omega)]
    simp [h1]

theorem mem_cellsAt {bs : List Byte} {i : Nat} {c : Host.Cell} (h : c ∈ cellsAt i bs) :
    i ≤ c.1 ∧ c.1 < i + bs.length := by
  induction bs generalizing i with
  | nil => simp [cellsAt] at h
  | cons b bs ih =>
    rcases List.mem_cons.1 h with rfl | h
    · simp
    · have := ih h; simp only [List.length_cons]; omega

theorem cellsAt_pairwise (bs : List Byte) (i : Nat) :
    (cellsAt i bs).Pairwise fun c d => c.1 < d.1 := by
  induction bs generalizing i with
  | nil => exact List.Pairwise.nil
  | cons b bs ih => exact List.Pairwise.cons (fun c hc => by have := mem_cellsAt hc; omega) (ih _)

/-- A store within the buffer keeps the canonical form. -/
theorem Memory.store_wf {m : Memory} (h : m.wf) (i : Nat) (bs : List Byte)
    (hi : i + bs.length ≤ Config.bufCap) : (m.store i bs).wf := by
  obtain ⟨hp, hb⟩ := h
  have hmem : ∀ c ∈ m.store i bs,
      (c ∈ m ∧ c.1 < i) ∨ (i ≤ c.1 ∧ c.1 < i + bs.length) ∨ (c ∈ m ∧ i + bs.length ≤ c.1) := by
    intro c hc
    simp only [Memory.store, List.mem_append, List.mem_filter, decide_eq_true_eq] at hc
    rcases hc with (hc | hc) | hc
    · exact .inl hc
    · exact .inr (.inl (mem_cellsAt hc))
    · exact .inr (.inr hc)
  refine ⟨?_, fun c hc => ?_⟩
  · simp only [Memory.store]
    refine List.pairwise_append.2 ⟨List.pairwise_append.2 ⟨hp.filter _, cellsAt_pairwise _ _, ?_⟩, hp.filter _, ?_⟩
    · intro c hc d hd
      have := mem_cellsAt hd
      simp only [List.mem_filter, decide_eq_true_eq] at hc
      omega
    · intro c hc d hd
      simp only [List.mem_append, List.mem_filter, decide_eq_true_eq] at hc hd
      rcases hc with hc | hc
      · omega
      · have := mem_cellsAt hc; omega
  · rcases hmem c hc with h | h | h
    · exact hb c h.1
    · omega
    · exact hb c h.1

/-- The empty buffer is in canonical form. -/
theorem Memory.nil_wf : Memory.wf [] := by simp [Memory.wf]

/-- Both buffers of the reset state are in canonical form. -/
theorem reset_buffers_wf : State.reset.ibuf.wf ∧ State.reset.obuf.wf := ⟨Memory.nil_wf, Memory.nil_wf⟩

/-! ### Bytes and byte strings of a state's buffers -/

/-- A byte of OBUF after a write of OBUF. -/
theorem byteAt_writeObuf_obuf (s : State) (i : Nat) (bs : List Byte) (a : Nat) :
    (s.writeObuf i bs).byteAt .obuf a =
      if i ≤ a ∧ a < i + bs.length then bs.getD (a - i) 0 else s.byteAt .obuf a := by
  simp only [State.byteAt, State.cells, writeObuf_obuf, writeObuf_epoch, Memory.read_store]
  split <;> rfl

/-- A write of OBUF leaves every byte of IBUF. -/
@[simp] theorem byteAt_writeObuf_ibuf (s : State) (i : Nat) (bs : List Byte) (a : Nat) :
    (s.writeObuf i bs).byteAt .ibuf a = s.byteAt .ibuf a := rfl

/-- A byte of IBUF after a write of IBUF. -/
theorem byteAt_writeIbuf_ibuf (s : State) (i : Nat) (bs : List Byte) (a : Nat) :
    (s.writeIbuf i bs).byteAt .ibuf a =
      if i ≤ a ∧ a < i + bs.length then bs.getD (a - i) 0 else s.byteAt .ibuf a := by
  simp only [State.byteAt, State.cells, writeIbuf_ibuf, writeIbuf_epoch, Memory.read_store]
  split <;> rfl

/-- A write of IBUF leaves every byte of OBUF. -/
@[simp] theorem byteAt_writeIbuf_obuf (s : State) (i : Nat) (bs : List Byte) (a : Nat) :
    (s.writeIbuf i bs).byteAt .obuf a = s.byteAt .obuf a := rfl

@[simp] theorem memRead_length (s : State) (sp : Config.Space) (i n : Nat) : (s.memRead sp i n).length = n := by
  simp [State.memRead]

/-- The `k`-th byte read is the byte at the `k`-th index. -/
theorem memRead_getElem (s : State) (sp : Config.Space) (i n k : Nat) (h : k < (s.memRead sp i n).length) :
    (s.memRead sp i n)[k] = s.byteAt sp (i + k) := by
  simp [State.memRead]

/-- Two states whose bytes agree on a range read the same byte string there. -/
theorem memRead_congr {s t : State} {sp sq : Config.Space} {i n : Nat}
    (h : ∀ a, i ≤ a → a < i + n → t.byteAt sp a = s.byteAt sq a) : t.memRead sp i n = s.memRead sq i n := by
  simp only [State.memRead]
  refine List.map_congr_left fun k hk => h _ (by omega) ?_
  have := List.mem_range.1 hk
  omega

/-- A read that reaches one byte further. -/
theorem memRead_succ (s : State) (sp : Config.Space) (i n : Nat) :
    s.memRead sp i (n + 1) = s.memRead sp i n ++ [s.byteAt sp (i + n)] := by
  simp [State.memRead, List.range_succ]

/-- Reading back what was just written to OBUF. -/
theorem memRead_writeObuf (s : State) (i : Nat) (bs : List Byte) :
    (s.writeObuf i bs).memRead .obuf i bs.length = bs := by
  refine List.ext_getElem (by simp) fun k h1 h2 => ?_
  rw [memRead_getElem, byteAt_writeObuf_obuf, if_pos (by omega)]
  simp [List.getElem?_eq_getElem h2]

/-- Reading back what was just written to IBUF. -/
theorem memRead_writeIbuf (s : State) (i : Nat) (bs : List Byte) :
    (s.writeIbuf i bs).memRead .ibuf i bs.length = bs := by
  refine List.ext_getElem (by simp) fun k h1 h2 => ?_
  rw [memRead_getElem, byteAt_writeIbuf_ibuf, if_pos (by omega)]
  simp [List.getElem?_eq_getElem h2]

@[simp] theorem input_length (s : State) : (input s).length = s.ilen.toNat := memRead_length ..

end Sys2Proof.Machine
end

