-- ==== Sys2Proof/Laws/Bytes.lean ====
section
/-! SUPPORT. Lengths and values of the byte strings the commands build, and the lengths of the hashes. -/

namespace Sys2Proof.Machine

@[simp] theorem le16_length (v : Half) : (le16 v).length = 2 := rfl
@[simp] theorem le32_length (v : Word) : (le32 v).length = 4 := rfl
@[simp] theorem be32_length (v : Word) : (be32 v).length = 4 := rfl
@[simp] theorem be64_length (v : BitVec 64) : (be64 v).length = 8 := rfl
@[simp] theorem rep_length (v : Byte) (n : Nat) : (rep v n).length = n := by simp [rep]
@[simp] theorem hdr_length (p : List Byte) (q : Half) : (hdr p q).length = 8 := rfl
@[simp] theorem pktHeader_length (d s f q : Byte) (n : Nat) : (pktHeader d s f q n).length = 5 := rfl
@[simp] theorem pktFooter_length (b m : Word) : (pktFooter b m).length = 8 := rfl

@[simp] theorem slice_length (s : List Byte) (a b : Nat) : (slice s a b).length = min (b - a) (s.length - a) := by
  simp [slice]

/-- `from_le` undoes `le16`. -/
@[simp] theorem fromLe_le16 (v : Half) : fromLe (le16 v) = v.toNat := by
  simp only [le16, fromLe, BitVec.extractLsb'_toNat, Nat.shiftRight_eq_div_pow]
  omega

/-- `from_le` undoes `le32`. -/
@[simp] theorem fromLe_le32 (v : Word) : fromLe (le32 v) = v.toNat := by
  simp only [le32, fromLe, BitVec.extractLsb'_toNat, Nat.shiftRight_eq_div_pow]
  omega

/-- `from_le` of `n` bytes is below `256 ^ n`. -/
theorem fromLe_lt (s : List Byte) : fromLe s < 256 ^ s.length := by
  induction s with
  | nil => simp [fromLe]
  | cons b s ih => simp only [fromLe, List.length_cons, Nat.pow_succ]; omega

/-- A latched header is the header. -/
@[simp] theorem latch_hdr_toList (p : List Byte) (q : Half) : (latch (hdr p q)).toList = hdr p q := rfl

/-! ### The hashes -/

@[simp] theorem sha256_length (m : List Byte) : (Config.sha256 m).length = 32 := by
  simp [Config.sha256]

@[simp] theorem hmacSha256_length (k m : List Byte) : (Config.hmacSha256 k m).length = 32 := by
  simp [Config.hmacSha256]

@[simp] theorem crc32_nil : Config.crc32 [] = 0 := rfl

/-- The inner state after two strings, one after the other (R100: "The inner state ... after a prefix depends only
on the prefix"). -/
theorem crcFold_append (c : Word) (p q : List Byte) :
    Config.crcFold c (p ++ q) = Config.crcFold (Config.crcFold c p) q := by
  simp [Config.crcFold]

@[simp] theorem pktBody_length (d s f q : Byte) (data : List Byte) (b m : Word) :
    (pktBody d s f q data b m).length = 13 + data.length := by
  simp only [pktBody, List.length_append, pktHeader_length, pktFooter_length]; omega

@[simp] theorem packet_length (k : List Byte) (d s f q : Byte) (data : List Byte) (b m : Word) :
    (packet k d s f q data b m).length = 45 + data.length := by
  simp only [packet, List.length_append, pktBody_length, hmacSha256_length]; omega

end Sys2Proof.Machine
end

