-- ==== Sys2Proof/Laws/Ops.lean ====
section
/-! SUPPORT. What each shared operation can do, said once: if it answers `next t`, then one of these cases holds. -/

namespace Sys2Proof.Machine

/-! ### The checks -/

/-- The busy check passes in `IDLE`. -/
theorem whenIdle_of_idle {s : State} (h : s.lstate = .idle) (k : Result) : whenIdle s k = k := by
  simp [whenIdle, h]

/-- The busy check refuses outside `IDLE`. -/
theorem whenIdle_of_active {s : State} (h : s.lstate ≠ .idle) (k : Result) :
    whenIdle s k = .next (takeError .busy s) := by
  simp [whenIdle, h]

/-- All that the busy check can do. -/
theorem whenIdle_next {s t : State} {k : Result} (h : whenIdle s k = .next t) :
    (s.lstate = .idle ∧ k = .next t) ∨ (s.lstate ≠ .idle ∧ t = takeError .busy s) := by
  by_cases hi : s.lstate = .idle
  · exact .inl ⟨hi, by rwa [whenIdle_of_idle hi] at h⟩
  · rw [whenIdle_of_active hi] at h
    injection h with h
    exact .inr ⟨hi, h.symm⟩

/-- An access within the buffer goes on. -/
theorem withinBuffer_of_le {n : Nat} (h : n ≤ Config.bufCap) (k : Result) : withinBuffer n k = k := by
  simp [withinBuffer, h]

/-- All that a bounded access can do. -/
theorem withinBuffer_next {n : Nat} {k : Result} {t : State} (h : withinBuffer n k = .next t) :
    n ≤ Config.bufCap ∧ k = .next t := by
  by_cases hn : n ≤ Config.bufCap
  · exact ⟨hn, by rwa [withinBuffer_of_le hn] at h⟩
  · simp [withinBuffer, hn] at h

/-! ### The receive parser -/

/-- All that `rx_finish` can do: refuse the payload, or acknowledge and deliver it. -/
theorem rxFinish_next {s t : State} (h : rxFinish s = .next t) :
    s.rlen.toNat ≤ Config.bufCap ∧
    ((Config.crc32 (s.memRead .obuf 0 s.rlen.toNat) ≠ s.rcrc ∧
        t = complete (linkEnd .rxNone .crcMismatch s.rcrc (Config.crc32 (s.memRead .obuf 0 s.rlen.toNat)) s)) ∨
      (Config.crc32 (s.memRead .obuf 0 s.rlen.toNat) = s.rcrc ∧
        t = complete (linkEnd .rxOk .none 0 0 { emit [Config.ackByte] s with olen := s.rlen }))) := by
  obtain ⟨hn, h⟩ := withinBuffer_next h
  refine ⟨hn, ?_⟩
  simp only at h
  split at h
  · rename_i hc; injection h with h; exact .inl ⟨hc, h.symm⟩
  · rename_i hc; injection h with h; exact .inr ⟨not_not.1 hc, h.symm⟩

/-- All that can follow the eighth header byte: oversized, an empty payload, or on to the payload. -/
theorem rxHeaderDone_next {s t : State} (h : rxHeaderDone s = .next t) :
    let u := setFields (fields s.hbuf.toList) s
    (Config.maxPacketSize < u.rlen.toNat ∧
        t = complete (linkEnd .rxNone .oversize 4096 (u.rlen.setWidth 32) u)) ∨
    (u.rlen = 0 ∧ rxFinish { emit [Config.ackByte] u with byteIdx := 0 } = .next t) ∨
    (u.rlen.toNat ≤ Config.maxPacketSize ∧ u.rlen ≠ 0 ∧
        t = complete { emit [Config.ackByte] u with byteIdx := 0, lstate := .rxPayload }) := by
  intro u
  simp only [rxHeaderDone] at h
  split at h
  · rename_i hc; injection h with h; exact .inl ⟨hc, h.symm⟩
  · rename_i hc
    split at h
    · rename_i hz; exact .inr (.inl ⟨hz, h⟩)
    · rename_i hz; injection h with h; exact .inr (.inr ⟨not_lt.1 hc, hz, h.symm⟩)

/-- A byte in `RX_HEADER`: stored, and followed by the decoding when it is the eighth. -/
theorem rxHeader_byte_next {b : Byte} {s t : State} (h : rxHeader (.byte b) s = .next t) :
    let u := { s with hbuf := s.hbuf.setIfInBounds s.byteIdx.toNat b, byteIdx := s.byteIdx + 1 }
    s.byteIdx.toNat < Config.hdrLen ∧
    ((u.byteIdx.toNat = Config.hdrLen ∧ rxHeaderDone u = .next t) ∨
      (u.byteIdx.toNat ≠ Config.hdrLen ∧ t = complete u)) := by
  intro u
  simp only [rxHeader] at h
  split at h
  · rename_i hi
    refine ⟨hi, ?_⟩
    split at h
    · rename_i he; exact .inl ⟨he, h⟩
    · rename_i he; injection h with h; exact .inr ⟨he, h.symm⟩
  · simp at h

/-- A byte in `RX_PAYLOAD`: stored, and followed by the check when it is the last. -/
theorem rxPayload_byte_next {b : Byte} {s t : State} (h : rxPayload (.byte b) s = .next t) :
    let u := { s.writeObuf s.byteIdx.toNat [b] with byteIdx := s.byteIdx + 1 }
    s.byteIdx.toNat + 1 ≤ Config.bufCap ∧
    ((u.byteIdx.toNat = u.rlen.toNat ∧ rxFinish u = .next t) ∨
      (u.byteIdx.toNat ≠ u.rlen.toNat ∧ t = complete u)) := by
  intro u
  obtain ⟨hn, h⟩ := withinBuffer_next h
  refine ⟨hn, ?_⟩
  simp only at h
  split at h
  · rename_i he; exact .inl ⟨he, h⟩
  · rename_i he; injection h with h; exact .inr ⟨he, h.symm⟩

/-- A link event in each state is that state's transition (R152). -/
theorem linkEvent_cases (ev : LinkEvent) (s : State) :
    (s.lstate = .idle ∧ linkEvent ev s = .next (takeError .state s)) ∨
    (s.lstate = .rxHunt ∧ linkEvent ev s = rxHunt ev s) ∨
    (s.lstate = .rxWaitStart ∧ linkEvent ev s = rxWaitStart ev s) ∨
    (s.lstate = .rxHeader ∧ linkEvent ev s = rxHeader ev s) ∨
    (s.lstate = .rxPayload ∧ linkEvent ev s = rxPayload ev s) ∨
    (s.lstate = .txWaitSyncAck ∧ linkEvent ev s = txSyncAck ev s) ∨
    (s.lstate = .txWaitHdrAck ∧ linkEvent ev s = txHdrAck ev s) ∨
    (s.lstate = .txWaitPayAck ∧ linkEvent ev s = txPayAck ev s) := by
  cases h : s.lstate <;> simp [linkEvent, h]

/-! ### Issuing, the register map and the step -/

/-- All that issuing a word can do: run its command, or write `ERR_ILLEGAL`. -/
theorem issue_next {w : CmdWord} {s t : State} (h : issue w s = .next t) :
    (∃ i, decode w = .ok i ∧ exec i s = .next t) ∨
    (∃ e, decode w = .error e ∧ t = takeError .illegal s) := by
  unfold issue issueDecoded at h
  split at h
  · rename_i i hi; exact .inl ⟨i, hi, h⟩
  · rename_i e he; injection h with h; exact .inr ⟨e, he, h.symm⟩

/-- All that a write of a whole register can do: `ARG`, a command, `ILEN`, or nothing. -/
theorem writeRegister_next {a : Nat} {v : Word} {s t : State} (h : writeRegister a v s = .next t) :
    (a = 0x00 ∧ t = { s with arg := v }) ∨
    (a = 0x04 ∧ issueDecoded (decodePort v s.arg) s = .next t) ∨
    (a = 0x10 ∧ s.lstate = .idle ∧ v.toNat ≤ Config.bufCap ∧ t = { s with ilen := v.setWidth 16 }) ∨
    t = s := by
  unfold writeRegister at h
  split at h
  · rename_i ha; injection h with h; exact .inl ⟨ha, h.symm⟩
  · split at h
    · rename_i ha; exact .inr (.inl ⟨ha, h⟩)
    · split at h
      · rename_i ha
        split at h
        · simp at h
        · rename_i hi
          split at h
          · injection h with h; exact .inr (.inr (.inr h.symm))
          · rename_i hv
            injection h with h
            exact .inr (.inr (.inl ⟨ha, not_not.1 hi, not_lt.1 hv, h.symm⟩))
      · injection h with h; exact .inr (.inr (.inr h.symm))

/-- All that a host write can do: a byte of IBUF, a register, or nothing. -/
theorem hostWrite_next {a : Nat} {v : Word} {s t : State} (h : hostWrite a v s = .next t) :
    (inWindow ibufBase a = true ∧ s.lstate = .idle ∧ t = s.writeIbuf (a - ibufBase) [v.extractLsb' 0 8]) ∨
    (a < 0x4C ∧ writeRegister (a - a % 4) v s = .next t) ∨ t = s := by
  unfold hostWrite at h
  split at h
  · rename_i hw
    split at h
    · simp at h
    · rename_i hi; injection h with h; exact .inl ⟨hw, not_not.1 hi, h.symm⟩
  · split at h
    · injection h with h; exact .inr (.inr h.symm)
    · rename_i ha
      split at h
      · exact .inr (.inl ⟨by omega, h⟩)
      · injection h with h; exact .inr (.inr h.symm)

/-- The addresses of a window: the 4104 bytes from its base. -/
theorem inWindow_iff (base a : Nat) : inWindow base a = true ↔ base ≤ a ∧ a < base + 4104 := by
  unfold inWindow Config.bufCap
  rw [Bool.and_eq_true_iff, decide_eq_true_iff, decide_eq_true_iff]

/-- The IBUF window, 0x2000 to 0x3007. -/
theorem ibufWindow_iff (a : Nat) : inWindow ibufBase a = true ↔ 0x2000 ≤ a ∧ a < 0x3008 := inWindow_iff ..

/-- The OBUF window, 0x4000 to 0x5007. -/
theorem obufWindow_iff (a : Nat) : inWindow obufBase a = true ↔ 0x4000 ≤ a ∧ a < 0x5008 := inWindow_iff ..

/-- A write at a register's own address is the write of that register. -/
theorem hostWrite_aligned {a : Nat} (v : Word) (s : State) (ha : a < 0x4C) (h4 : a % 4 = 0) :
    hostWrite a v s = writeRegister a v s := by
  have hw : ¬ inWindow ibufBase a = true := by rw [ibufWindow_iff]; omega
  simp [hostWrite, hw, h4, show ¬ 0x4C ≤ a by omega]

/-- A read in the IBUF window is the byte, zero-extended. -/
theorem hostRead_ibuf (s : State) {i : Nat} (h : i < 4104) :
    hostRead s (0x2000 + i) = (s.byteAt .ibuf i).setWidth 32 := by
  rw [hostRead, if_pos ((ibufWindow_iff _).2 (by omega)),
    show 0x2000 + i - ibufBase = i from Nat.add_sub_cancel_left ..]

/-- A read in the OBUF window is the byte, zero-extended. -/
theorem hostRead_obuf (s : State) {i : Nat} (h : i < 4104) :
    hostRead s (0x4000 + i) = (s.byteAt .obuf i).setWidth 32 := by
  rw [hostRead, if_neg (by rw [ibufWindow_iff]; omega), if_pos ((obufWindow_iff _).2 (by omega)),
    show 0x4000 + i - obufBase = i from Nat.add_sub_cancel_left ..]

/-- A read at a register's address is the register. -/
theorem hostRead_register (s : State) {a : Nat} (h : a < 0x4C) : hostRead s a = registerWord s a := by
  rw [hostRead, if_neg (by rw [ibufWindow_iff]; omega), if_neg (by rw [obufWindow_iff]; omega), if_neg (by omega)]

/-- A read anywhere else is 0. -/
theorem hostRead_reserved (s : State) {a : Nat} (h : 0x4C ≤ a) (hi : ¬ (0x2000 ≤ a ∧ a < 0x3008))
    (ho : ¬ (0x4000 ≤ a ∧ a < 0x5008)) : hostRead s a = 0 := by
  rw [hostRead, if_neg (by rw [ibufWindow_iff]; omega), if_neg (by rw [obufWindow_iff]; omega), if_pos h]

/-- All that the host's load can do. -/
theorem hostLoad_next {bs : List Byte} {s t : State} (h : hostLoad bs s = .next t) :
    s.lstate = .idle ∧ bs.length ≤ Config.bufCap ∧
      t = { s.writeIbuf 0 bs with ilen := BitVec.ofNat 16 bs.length } := by
  simp only [hostLoad] at h
  split at h
  · simp at h
  · rename_i hi
    split at h
    · simp at h
    · rename_i hl; injection h with h; exact ⟨not_not.1 hi, not_lt.1 hl, h.symm⟩

/-- A step with a move pending makes that move on the state without it. -/
theorem step_of_move {s : State} {m : Move} {rest : List Move} (h : s.moves = m :: rest) :
    step s = runMove m { s with moves := rest } := by
  simp [step, takeMove, h]

/-- A step with no move pending waits. -/
theorem step_of_no_move {s : State} (h : s.moves = []) : step s = .next s := by
  simp [step, takeMove, h]

/-- All that a step can do: wait, or make the next move on the state without it. -/
theorem step_next {s t : State} (h : step s = .next t) :
    (s.moves = [] ∧ t = s) ∨
    ∃ m rest, s.moves = m :: rest ∧ runMove m { s with moves := rest } = .next t := by
  unfold step takeMove at h
  split at h
  · rename_i hm; injection h with h; exact .inl ⟨hm, h.symm⟩
  · rename_i m rest hm; exact .inr ⟨m, rest, hm, h⟩

/-- All that a move can do. -/
theorem runMove_next {m : Move} {s t : State} (h : runMove m s = .next t) :
    (∃ w, m = .cmd w ∧ issue w s = .next t) ∨ (∃ bs, m = .load bs ∧ hostLoad bs s = .next t) ∨
    (∃ a v, m = .write a v ∧ hostWrite a v s = .next t) ∨ (∃ a, m = .read a ∧ t = s) ∨
    (m = .reset ∧ t = resetBlock s) ∨ (∃ b, m = .arrive b ∧ t = { s with rxin := s.rxin ++ [b] }) ∨
    (m = .deliver ∧ (t = s ∨ ∃ b rest, s.rxin = b :: rest ∧ s.lstate ≠ .idle ∧
      exec (.linkByte b) { s with rxin := rest } = .next t)) ∨
    (m = .timeout ∧ (t = s ∨ (s.lstate ≠ .idle ∧ exec .linkTimeout s = .next t))) := by
  cases m with
  | cmd w => exact .inl ⟨w, rfl, h⟩
  | load bs => exact .inr (.inl ⟨bs, rfl, h⟩)
  | write a v => exact .inr (.inr (.inl ⟨a, v, rfl, h⟩))
  | read a => injection h with h; exact .inr (.inr (.inr (.inl ⟨a, rfl, h.symm⟩)))
  | reset => injection h with h; exact .inr (.inr (.inr (.inr (.inl ⟨rfl, h.symm⟩))))
  | arrive b => injection h with h; exact .inr (.inr (.inr (.inr (.inr (.inl ⟨b, rfl, h.symm⟩)))))
  | deliver =>
    refine .inr (.inr (.inr (.inr (.inr (.inr (.inl ⟨rfl, ?_⟩))))))
    simp only [runMove, deliver] at h
    split at h
    · injection h with h; exact .inl h.symm
    · rename_i b rest hr
      split at h
      · injection h with h; exact .inl h.symm
      · rename_i hi; exact .inr ⟨b, rest, hr, hi, h⟩
  | timeout =>
    refine .inr (.inr (.inr (.inr (.inr (.inr (.inr ⟨rfl, ?_⟩))))))
    simp only [runMove, channelTimeout] at h
    split at h
    · injection h with h; exact .inl h.symm
    · rename_i hi; exact .inr ⟨hi, h⟩

end Sys2Proof.Machine
end

