-- ==== Sys2Proof/Laws/PerInstr.lean ====
section
/-! SUPPORT. What holds of every command as syntax, one lemma per constructor of Instr. -/

namespace Sys2Proof.Laws

open Sys2Proof Sys2Proof.Machine

/-! ### The assembler (spec/30_encoding.md R75) -/

/-- The command's assembler line is well formed and assembles back to it, with every operand at every value (R75). -/
def AsmRoundTrip.Statement (i : Instr) : Prop := i.wellFormed = true ∧ assemble i.toAsm = some i

/-- An operand of a bit vector's width always fits its field. -/
theorem operandsFit_toNat {w : Nat} (v : BitVec w) (ns ws : List Nat) :
    operandsFit (v.toNat :: ns) (w :: ws) = operandsFit ns ws := by
  simp [operandsFit, v.isLt]


theorem AsmRoundTrip.nop : AsmRoundTrip.Statement .nop := by constructor <;> rfl

theorem AsmRoundTrip.wrCfg (c : BitVec 3) : AsmRoundTrip.Statement (.wrCfg c) := by
  have h : Instr.wellFormed (.wrCfg c) = true := by
    simp [Instr.wellFormed, Instr.toAsm, Instr.mnemonic, AsmLine.wellFormed, formatOf, Format.widths,
      operandsFit_toNat, show operandsFit [] [] = true from rfl]
  refine ⟨h, ?_⟩
  have h2 : (Instr.toAsm (.wrCfg c)).wellFormed = true := h
  rw [assemble, if_pos h2]
  simp [Instr.toAsm, Instr.mnemonic]

theorem AsmRoundTrip.clrSticky : AsmRoundTrip.Statement .clrSticky := by constructor <;> rfl

theorem AsmRoundTrip.crc32 : AsmRoundTrip.Statement .crc32 := by constructor <;> rfl

theorem AsmRoundTrip.encHdr (q : Half) : AsmRoundTrip.Statement (.encHdr q) := by
  have h : Instr.wellFormed (.encHdr q) = true := by
    simp [Instr.wellFormed, Instr.toAsm, Instr.mnemonic, AsmLine.wellFormed, formatOf, Format.widths,
      operandsFit_toNat, show operandsFit [] [] = true from rfl]
  refine ⟨h, ?_⟩
  have h2 : (Instr.toAsm (.encHdr q)).wellFormed = true := h
  rw [assemble, if_pos h2]
  simp [Instr.toAsm, Instr.mnemonic]

theorem AsmRoundTrip.decHdr : AsmRoundTrip.Statement .decHdr := by constructor <;> rfl

theorem AsmRoundTrip.frmEnc (q : Half) : AsmRoundTrip.Statement (.frmEnc q) := by
  have h : Instr.wellFormed (.frmEnc q) = true := by
    simp [Instr.wellFormed, Instr.toAsm, Instr.mnemonic, AsmLine.wellFormed, formatOf, Format.widths,
      operandsFit_toNat, show operandsFit [] [] = true from rfl]
  refine ⟨h, ?_⟩
  have h2 : (Instr.toAsm (.frmEnc q)).wellFormed = true := h
  rw [assemble, if_pos h2]
  simp [Instr.toAsm, Instr.mnemonic]

theorem AsmRoundTrip.frmDec : AsmRoundTrip.Statement .frmDec := by constructor <;> rfl

theorem AsmRoundTrip.txStart (q : Half) : AsmRoundTrip.Statement (.txStart q) := by
  have h : Instr.wellFormed (.txStart q) = true := by
    simp [Instr.wellFormed, Instr.toAsm, Instr.mnemonic, AsmLine.wellFormed, formatOf, Format.widths,
      operandsFit_toNat, show operandsFit [] [] = true from rfl]
  refine ⟨h, ?_⟩
  have h2 : (Instr.toAsm (.txStart q)).wellFormed = true := h
  rw [assemble, if_pos h2]
  simp [Instr.toAsm, Instr.mnemonic]

theorem AsmRoundTrip.rxStart : AsmRoundTrip.Statement .rxStart := by constructor <;> rfl

theorem AsmRoundTrip.linkByte (b : Byte) : AsmRoundTrip.Statement (.linkByte b) := by
  have h : Instr.wellFormed (.linkByte b) = true := by
    simp [Instr.wellFormed, Instr.toAsm, Instr.mnemonic, AsmLine.wellFormed, formatOf, Format.widths,
      operandsFit_toNat, show operandsFit [] [] = true from rfl]
  refine ⟨h, ?_⟩
  have h2 : (Instr.toAsm (.linkByte b)).wellFormed = true := h
  rw [assemble, if_pos h2]
  simp [Instr.toAsm, Instr.mnemonic]

theorem AsmRoundTrip.linkTimeout : AsmRoundTrip.Statement .linkTimeout := by constructor <;> rfl

theorem AsmRoundTrip.linkAbort : AsmRoundTrip.Statement .linkAbort := by constructor <;> rfl

theorem AsmRoundTrip.sha256 : AsmRoundTrip.Statement .sha256 := by constructor <;> rfl

theorem AsmRoundTrip.pktCreate (d s f q : Byte) : AsmRoundTrip.Statement (.pktCreate d s f q) := by
  have h : Instr.wellFormed (.pktCreate d s f q) = true := by
    simp [Instr.wellFormed, Instr.toAsm, Instr.mnemonic, AsmLine.wellFormed, formatOf, Format.widths,
      operandsFit_toNat, show operandsFit [] [] = true from rfl]
  refine ⟨h, ?_⟩
  have h2 : (Instr.toAsm (.pktCreate d s f q)).wellFormed = true := h
  rw [assemble, if_pos h2]
  simp [Instr.toAsm, Instr.mnemonic]

theorem AsmRoundTrip.pktParse : AsmRoundTrip.Statement .pktParse := by constructor <;> rfl

theorem AsmRoundTrip.advMsgid : AsmRoundTrip.Statement .advMsgid := by constructor <;> rfl

theorem AsmRoundTrip.syncBoot (v : Word) : AsmRoundTrip.Statement (.syncBoot v) := by
  have h : Instr.wellFormed (.syncBoot v) = true := by
    simp [Instr.wellFormed, Instr.toAsm, Instr.mnemonic, AsmLine.wellFormed, formatOf, Format.widths,
      operandsFit_toNat, show operandsFit [] [] = true from rfl]
  refine ⟨h, ?_⟩
  have h2 : (Instr.toAsm (.syncBoot v)).wellFormed = true := h
  rw [assemble, if_pos h2]
  simp [Instr.toAsm, Instr.mnemonic]

theorem AsmRoundTrip.nvLoad : AsmRoundTrip.Statement .nvLoad := by constructor <;> rfl

/-! ### The opcode table (spec/30_encoding.md R73) -/

/-- The command's word selects a row of the opcode table that bears its mnemonic and its format. -/
def RowSelected.Statement (i : Instr) : Prop :=
  ∃ r ∈ opcodeTable, r.selects (encode i) = true ∧ r.mnemonic = i.mnemonic ∧ formatOf i.mnemonic = some r.format

/-- A u16 in the low half of the argument has no bit in the high half. -/
theorem high_zero (q : Half) : q.setWidth 32 &&& 0xFFFF0000#32 = 0 := by
  have mask : ∀ i : Fin 16, (0xFFFF0000#32).getLsbD i = false := by decide
  apply BitVec.eq_of_getLsbD_eq
  intro i hi
  by_cases h : i < 16
  · simp [mask ⟨i, h⟩]
  · simp [BitVec.getLsbD_of_ge q i (by omega)]

/-- A word of an opcode and an argument selects a row whose mask splits so. -/
theorem selects_append {m : String} {f : Format} {op om : Byte} {arg am : Word} {pat : CmdWord}
    (h : (op &&& om) ++ (arg &&& am) = pat) :
    (TableRow.mk m f (om ++ am) pat).selects (op ++ arg) = true := by
  simp only [TableRow.selects, beq_iff_eq]
  rw [← h]
  exact BitVec.and_append

theorem RowSelected.nop : RowSelected.Statement .nop := by
  exact ⟨⟨"NOP", .N, 0xFFFFFFFFFF, 0x0000000000⟩, by decide, by decide, rfl, by decide⟩

theorem RowSelected.wrCfg (c : BitVec 3) : RowSelected.Statement (.wrCfg c) := by
  refine ⟨⟨"WR_CFG", .C, 0xFFFFFFFFF8, 0x0100000000⟩, by decide, ?_, rfl, rfl⟩
  refine selects_append (om := 0xFF) (am := 0xFFFFFFF8) ?_
  simp only [Instr.opcode, Instr.arg]
  revert c; decide

theorem RowSelected.clrSticky : RowSelected.Statement .clrSticky := by
  exact ⟨⟨"CLR_STICKY", .N, 0xFFFFFFFFFF, 0x0200000000⟩, by decide, by decide, rfl, by decide⟩

theorem RowSelected.crc32 : RowSelected.Statement .crc32 := by
  exact ⟨⟨"CRC32", .N, 0xFFFFFFFFFF, 0x0800000000⟩, by decide, by decide, rfl, by decide⟩

theorem RowSelected.encHdr (q : Half) : RowSelected.Statement (.encHdr q) := by
  refine ⟨⟨"ENC_HDR", .S, 0xFFFFFF0000, 0x1000000000⟩, by decide, ?_, rfl, rfl⟩
  refine selects_append (om := 0xFF) (am := 0xFFFF0000) ?_
  simp only [Instr.opcode, Instr.arg]
  rw [show (q.setWidth 32 : Word) &&& 0xFFFF0000 = 0 from high_zero q]; rfl

theorem RowSelected.decHdr : RowSelected.Statement .decHdr := by
  exact ⟨⟨"DEC_HDR", .N, 0xFFFFFFFFFF, 0x1100000000⟩, by decide, by decide, rfl, by decide⟩

theorem RowSelected.frmEnc (q : Half) : RowSelected.Statement (.frmEnc q) := by
  refine ⟨⟨"FRM_ENC", .S, 0xFFFFFF0000, 0x1200000000⟩, by decide, ?_, rfl, rfl⟩
  refine selects_append (om := 0xFF) (am := 0xFFFF0000) ?_
  simp only [Instr.opcode, Instr.arg]
  rw [show (q.setWidth 32 : Word) &&& 0xFFFF0000 = 0 from high_zero q]; rfl

theorem RowSelected.frmDec : RowSelected.Statement .frmDec := by
  exact ⟨⟨"FRM_DEC", .N, 0xFFFFFFFFFF, 0x1300000000⟩, by decide, by decide, rfl, by decide⟩

theorem RowSelected.txStart (q : Half) : RowSelected.Statement (.txStart q) := by
  refine ⟨⟨"TX_START", .S, 0xFFFFFF0000, 0x2000000000⟩, by decide, ?_, rfl, rfl⟩
  refine selects_append (om := 0xFF) (am := 0xFFFF0000) ?_
  simp only [Instr.opcode, Instr.arg]
  rw [show (q.setWidth 32 : Word) &&& 0xFFFF0000 = 0 from high_zero q]; rfl

theorem RowSelected.rxStart : RowSelected.Statement .rxStart := by
  exact ⟨⟨"RX_START", .N, 0xFFFFFFFFFF, 0x2100000000⟩, by decide, by decide, rfl, by decide⟩

theorem RowSelected.linkByte (b : Byte) : RowSelected.Statement (.linkByte b) := by
  refine ⟨⟨"LINK_BYTE", .B, 0xFFFFFFFF00, 0x2800000000⟩, by decide, ?_, rfl, rfl⟩
  refine selects_append (om := 0xFF) (am := 0xFFFFFF00) ?_
  simp only [Instr.opcode, Instr.arg]
  revert b; decide

theorem RowSelected.linkTimeout : RowSelected.Statement .linkTimeout := by
  exact ⟨⟨"LINK_TIMEOUT", .N, 0xFFFFFFFFFF, 0x2900000000⟩, by decide, by decide, rfl, by decide⟩

theorem RowSelected.linkAbort : RowSelected.Statement .linkAbort := by
  exact ⟨⟨"LINK_ABORT", .N, 0xFFFFFFFFFF, 0x2A00000000⟩, by decide, by decide, rfl, by decide⟩

theorem RowSelected.sha256 : RowSelected.Statement .sha256 := by
  exact ⟨⟨"SHA256", .N, 0xFFFFFFFFFF, 0x4000000000⟩, by decide, by decide, rfl, by decide⟩

theorem RowSelected.pktCreate (d s f q : Byte) : RowSelected.Statement (.pktCreate d s f q) := by
  refine ⟨⟨"PKT_CREATE", .P, 0xFF00000000, 0x5000000000⟩, by decide, ?_, rfl, rfl⟩
  refine selects_append (om := 0xFF) (am := 0x00000000) ?_
  simp only [Instr.opcode, Instr.arg]
  rw [show (d ++ s ++ f ++ q : Word) &&& 0x00000000 = 0 by simp]; rfl

theorem RowSelected.pktParse : RowSelected.Statement .pktParse := by
  exact ⟨⟨"PKT_PARSE", .N, 0xFFFFFFFFFF, 0x5100000000⟩, by decide, by decide, rfl, by decide⟩

theorem RowSelected.advMsgid : RowSelected.Statement .advMsgid := by
  exact ⟨⟨"ADV_MSGID", .N, 0xFFFFFFFFFF, 0x6000000000⟩, by decide, by decide, rfl, by decide⟩

theorem RowSelected.syncBoot (v : Word) : RowSelected.Statement (.syncBoot v) := by
  refine ⟨⟨"SYNC_BOOT", .W, 0xFF00000000, 0x6100000000⟩, by decide, ?_, rfl, rfl⟩
  refine selects_append (om := 0xFF) (am := 0x00000000) ?_
  simp only [Instr.opcode, Instr.arg]
  rw [show v &&& 0x00000000 = 0 by simp]; rfl

theorem RowSelected.nvLoad : RowSelected.Statement .nvLoad := by
  exact ⟨⟨"NV_LOAD", .N, 0xFFFFFFFFFF, 0x6200000000⟩, by decide, by decide, rfl, by decide⟩

end Sys2Proof.Laws
end

