-- ==== Sys2Proof/Tests/Slice0.lean ====
section
/-! SUPPORT. The model's own tests: words written out from the encodings, one step on small states with the
expected results of spec/95_test_vectors.md, and for every statement with hypotheses a state and operands that meet
them. -/

namespace Sys2Proof.Tests

open Sys2Proof Sys2Proof.Machine Sys2Proof.Spec Sys2Proof.Safety

/-! ### Small states -/

/-- The vectors' key, the seven bytes of "testkey". -/
def testKey : List Byte := [0x74, 0x65, 0x73, 0x74, 0x6B, 0x65, 0x79]

/-- The block after reset with the vectors' parameters and a store that holds these counters. -/
def booted (boot msg : Word) : State :=
  { State.reset with
    params := { syncByte := 0x55, key := testKey, nvInitBoot := boot, nvInitMsg := msg }
    bootCount := boot, msgId := msg, nvBoot := boot, nvMsg := msg }

/-- The vectors' start state. -/
def start : State := booted 474 0

/-- A state with a byte string loaded. -/
def load (bs : List Byte) (s : State) : State :=
  { s with ibuf := cellsAt 0 bs, ilen := BitVec.ofNat 16 bs.length }

/-- A state with only the length of the input set. -/
def sized (n : Half) : State := { start with ilen := n }

/-- A state in a given sequencer state. -/
def active (l : LState) : State := { start with lstate := l }

/-- "hello". -/
def hello : List Byte := [0x68, 0x65, 0x6C, 0x6C, 0x6F]

/-- The frame header of "hello" with sequence number 1 (vector V-F1). -/
def helloHdr : List Byte := [0x05, 0x00, 0x01, 0x00, 0x86, 0xA6, 0x10, 0x36]

/-- The packet `pktA` (vector V-S2, reading A). -/
def pktA : List Byte :=
  [0xFF, 0xFF, 0x00, 0x00, 0x01, 0x00, 0xDA, 0x01, 0x00, 0x00, 0x01, 0x00, 0x00, 0x00,
   0x07, 0xB3, 0xE0, 0xA7, 0x9D, 0xD8, 0x2D, 0xF6, 0xB5, 0xF6, 0x4A, 0xC7, 0x07, 0x6A, 0x81, 0x33,
   0x6C, 0x34, 0xF5, 0xF9, 0xA0, 0x32, 0x83, 0x30, 0x6E, 0x5F, 0xBF, 0x7D, 0x09, 0xDC, 0x87, 0xB2]

/-- What a view shows of the next state, where there is one. -/
def seen {α : Type} (r : Result) (view : State → α) : Option α :=
  match r with
  | .next s => some (view s)
  | .fault _ => none
  | .refused _ => none

/-- The bytes of `OBUF[0..OLEN)`. -/
def output (s : State) : List Byte := s.memRead .obuf 0 s.olen.toNat

/-! ### Decoding: words written out bit by bit from R71 and R73 -/

theorem test_decode_nop : decode 0b00000000_00000000_00000000_00000000_00000000#40 = .ok .nop := by decide
theorem test_decode_wrCfg : decode 0b00000001_00000000_00000000_00000000_00000101#40 = .ok (.wrCfg 5) := by decide
theorem test_decode_clrSticky : decode 0b00000010_00000000_00000000_00000000_00000000#40 = .ok .clrSticky := by
  decide
theorem test_decode_crc32 : decode 0b00001000_00000000_00000000_00000000_00000000#40 = .ok .crc32 := by decide
theorem test_decode_encHdr :
    decode 0b00010000_00000000_00000000_00010010_00110100#40 = .ok (.encHdr 0x1234) := by decide
theorem test_decode_decHdr : decode 0b00010001_00000000_00000000_00000000_00000000#40 = .ok .decHdr := by decide
theorem test_decode_frmEnc :
    decode 0b00010010_00000000_00000000_11111111_11111111#40 = .ok (.frmEnc 0xFFFF) := by decide
theorem test_decode_frmDec : decode 0b00010011_00000000_00000000_00000000_00000000#40 = .ok .frmDec := by decide
theorem test_decode_txStart :
    decode 0b00100000_00000000_00000000_10000000_00000001#40 = .ok (.txStart 0x8001) := by decide
theorem test_decode_rxStart : decode 0b00100001_00000000_00000000_00000000_00000000#40 = .ok .rxStart := by decide
theorem test_decode_linkByte :
    decode 0b00101000_00000000_00000000_00000000_00100001#40 = .ok (.linkByte 0x21) := by decide
theorem test_decode_linkTimeout :
    decode 0b00101001_00000000_00000000_00000000_00000000#40 = .ok .linkTimeout := by decide
theorem test_decode_linkAbort :
    decode 0b00101010_00000000_00000000_00000000_00000000#40 = .ok .linkAbort := by decide
theorem test_decode_sha256 : decode 0b01000000_00000000_00000000_00000000_00000000#40 = .ok .sha256 := by decide
theorem test_decode_pktCreate :
    decode 0b01010000_00010000_00100000_00000011_00000001#40 = .ok (.pktCreate 0x10 0x20 3 1) := by decide
theorem test_decode_pktParse : decode 0b01010001_00000000_00000000_00000000_00000000#40 = .ok .pktParse := by
  decide
theorem test_decode_advMsgid : decode 0b01100000_00000000_00000000_00000000_00000000#40 = .ok .advMsgid := by
  decide
theorem test_decode_syncBoot :
    decode 0b01100001_10000000_00000000_00000001_11011011#40 = .ok (.syncBoot 0x800001DB) := by decide
theorem test_decode_nvLoad : decode 0b01100010_00000000_00000000_00000000_00000000#40 = .ok .nvLoad := by decide

/-- The illegal words of vector V-X, each by the name of what is wrong with it. -/
theorem test_illegal_words :
    decode 0x0700000000 = .error (.unknownOpcode 0x07) ∧ decode 0xFF00000000 = .error (.unknownOpcode 0xFF) ∧
    decode 0x0000000001 = .error (.reservedBits 0x00 1) ∧ decode 0x0100000008 = .error (.reservedBits 0x01 8) ∧
    decode 0x1000010000 = .error (.reservedBits 0x10 0x10000) ∧
    decode 0x2800000100 = .error (.reservedBits 0x28 0x100) := by decide

/-- Vector V-X: a 41-bit value is no command word, and `OP` written with bit 8 set is illegal. -/
theorem test_too_wide :
    decodeTableWord 40 0x10000000000 = none ∧ decodePort 0x100 0 = .error (.opHighBits 0x100) ∧
    decodePort 0x61 475 = .ok (.syncBoot 475) := by decide

/-! ### Assembler lines (R75) -/

theorem test_wellFormed_accepts :
    AsmLine.wellFormed ⟨"PKT_CREATE", [255, 255, 0, 255]⟩ = true ∧ AsmLine.wellFormed ⟨"WR_CFG", [7]⟩ = true := by
  decide
theorem test_wellFormed_refuses_an_unknown_mnemonic : AsmLine.wellFormed ⟨"HALT", []⟩ = false := by decide
theorem test_wellFormed_refuses_a_missing_operand : AsmLine.wellFormed ⟨"SYNC_BOOT", []⟩ = false := by decide
theorem test_wellFormed_refuses_an_extra_operand : AsmLine.wellFormed ⟨"NOP", [0]⟩ = false := by decide
theorem test_wellFormed_refuses_operands_that_do_not_fit :
    AsmLine.wellFormed ⟨"WR_CFG", [8]⟩ = false ∧ AsmLine.wellFormed ⟨"LINK_BYTE", [256]⟩ = false ∧
    AsmLine.wellFormed ⟨"ENC_HDR", [65536]⟩ = false ∧ AsmLine.wellFormed ⟨"SYNC_BOOT", [4294967296]⟩ = false ∧
    AsmLine.wellFormed ⟨"PKT_CREATE", [0, 0, 256, 0]⟩ = false := by decide

theorem test_readLine :
    readLine " PKT_CREATE 0x10, 0x20, 3, 1 ; build".toList = some ⟨"PKT_CREATE", [16, 32, 3, 1]⟩ ∧
    readLine "NOP".toList = some ⟨"NOP", []⟩ ∧ readLine "SYNC_BOOT 4z5".toList = none := by decide
theorem test_assemble_never_truncates :
    assemble ⟨"SYNC_BOOT", [475]⟩ = some (.syncBoot 475) ∧ assemble ⟨"LINK_BYTE", [0x155]⟩ = none := by decide
theorem test_pseudo :
    Pseudo.cfgDiagnostic.expand = [.cmd 0x0100000005] ∧
    (Pseudo.feed [0x55, 0x40]).expand = [.cmd 0x2800000055, .cmd 0x2800000040] := by decide

/-! ### One step each -/

theorem test_nop_runs_while_active :
    seen (exec .nop { active .rxHunt with err := .busy }) id = some (active .rxHunt) := by decide
theorem test_wrCfg : seen (exec (.wrCfg 5) start) id = some { start with cfg := 0b101 } := by decide
theorem test_wrCfg_busy : seen (exec (.wrCfg 5) (active .rxHunt)) id = some { active .rxHunt with err := .busy } := by
  decide
theorem test_clrSticky : seen (exec .clrSticky { start with bootAnomaly := true }) id = some start := by decide

/-- Vector V-C. -/
theorem test_crc32_hello : seen (exec .crc32 (load hello start)) (·.rcrc) = some 0x3610A686 := by decide +kernel
theorem test_crc32_catalogue :
    seen (exec .crc32 (load [0x31, 0x32, 0x33, 0x34, 0x35, 0x36, 0x37, 0x38, 0x39] start)) (·.rcrc) =
      some 0xCBF43926 := by decide +kernel

/-- Vector V-F1. -/
theorem test_encHdr : seen (exec (.encHdr 1) (load hello start)) output = some helloHdr := by decide +kernel
theorem test_encHdr_length : seen (exec (.encHdr 1) (sized 4097)) id = some { sized 4097 with err := .length } := by
  decide

/-- Vector V-F3. -/
theorem test_decHdr :
    seen (exec .decHdr (load [0x01, 0x10, 0x02, 0x00, 0xEF, 0xBE, 0xAD, 0xDE] start))
      (fun t => (t.err, t.rlen, t.rseq, t.rcrc)) = some (.ok, 4097, 2, 0xDEADBEEF) := by decide +kernel
theorem test_decHdr_lengths :
    seen (exec .decHdr (sized 7)) (·.err) = some .short ∧ seen (exec .decHdr (sized 9)) (·.err) = some .format := by
  decide

/-- Vector V-F2. -/
theorem test_frmEnc : seen (exec (.frmEnc 1) (load hello start)) output = some (helloHdr ++ hello) := by
  decide +kernel

/-- Vector V-F4. -/
theorem test_frmDec :
    seen (exec .frmDec (load (helloHdr ++ hello) start)) (fun t => (t.err, output t, t.rseq)) =
      some (.ok, hello, 1) := by decide +kernel
theorem test_frmDec_refuses :
    seen (exec .frmDec (load ((helloHdr ++ hello).set 8 0x69) start)) (·.err) = some .crc ∧
    seen (exec .frmDec (load [0x01, 0x10, 0, 0, 0, 0, 0, 0] start)) (·.err) = some .length := by decide +kernel

/-- Vector V-T, after `TX_START`. -/
theorem test_txStart :
    seen (exec (.txStart 1) (load hello start))
      (fun t => (t.txout, t.hbuf.toList, t.lstate, t.txTries)) =
      some ([0x55, 0x55, 0x55], helloHdr, .txWaitSyncAck, 1) := by decide +kernel

/-- Vector V-T row 7: `LSTAT` after the first acknowledgement. -/
theorem test_linkByte_ack :
    seen (exec (.linkByte 0x21) { active .txWaitSyncAck with txTries := 1 })
      (fun t => (t.txout, lstatWord t)) = some ([0x40, 0, 0, 0, 0, 0, 0, 0, 0], 0x00010006) := by decide

/-- Vector V-T row 3: the last timeout. -/
theorem test_linkTimeout_sync_unacked :
    seen (exec .linkTimeout { active .txWaitSyncAck with txTries := 3 })
      (fun t => (t.lexp, t.lact, lstatWord t)) = some (3, 3, 0x00030220) := by decide

/-- Vector V-R, after `RX_START`. -/
theorem test_rxStart :
    seen (exec .rxStart { start with olen := 5, lcause := .noData, missCnt := 9 })
      (fun t => (t.olen, t.lcause, lstatWord t)) = some (0, .none, 1) := by decide

/-- Vector V-R row 12: the last byte "p" instead of "o". -/
theorem test_linkByte_crc_mismatch :
    seen (exec (.linkByte 0x70)
        { active .rxPayload with
          obuf := cellsAt 0 [0x68, 0x65, 0x6C, 0x6C], rlen := 5, rcrc := 0x3610A686, byteIdx := 4, syncCnt := 3 })
      (fun t => (t.lexp, t.lact, lstatWord t)) = some (0x3610A686, 0xBB18AB73, 0x00140DD0) := by decide +kernel

/-- Vector V-R row 8: the timeout in the header. -/
theorem test_linkTimeout_header_short :
    seen (exec .linkTimeout { active .rxHeader with byteIdx := 3 }) (fun t => (t.lcause, t.lexp, t.lact)) =
      some (.headerShort, 8, 3) := by decide

/-- Vector V-R row 15. -/
theorem test_linkAbort :
    seen (exec .linkAbort { active .rxHeader with byteIdx := 4, syncCnt := 3 }) lstatWord = some 0x00100EE8 := by
  decide
theorem test_linkAbort_idle : seen (exec .linkAbort start) id = some start := by decide

/-- Vector V-H1 row 2. -/
theorem test_sha256_abc :
    seen (exec .sha256 (load [0x61, 0x62, 0x63] start)) output =
      some [0xBA, 0x78, 0x16, 0xBF, 0x8F, 0x01, 0xCF, 0xEA, 0x41, 0x41, 0x40, 0xDE, 0x5D, 0xAE, 0x22, 0x23,
        0xB0, 0x03, 0x61, 0xA3, 0x96, 0x17, 0x7A, 0x9C, 0xB4, 0x10, 0xFF, 0x61, 0xF2, 0x00, 0x15, 0xAD] := by
  decide +kernel

/-- Vector V-H1 row 5: 56 bytes need a second block. -/
theorem test_sha256_two_blocks :
    (Config.sha256 (rep 0x61 56)).take 8 = [0xB3, 0x54, 0x39, 0xA4, 0xAC, 0x6F, 0x09, 0x48] := by decide +kernel

/-- Vector V-H2 row 2 (RFC 4231, case 2). -/
theorem test_hmac :
    (Config.hmacSha256 [0x4A, 0x65, 0x66, 0x65]
      [0x77, 0x68, 0x61, 0x74, 0x20, 0x64, 0x6F, 0x20, 0x79, 0x61, 0x20, 0x77, 0x61, 0x6E, 0x74, 0x20, 0x66, 0x6F,
       0x72, 0x20, 0x6E, 0x6F, 0x74, 0x68, 0x69, 0x6E, 0x67, 0x3F]).take 8 =
      [0x5B, 0xDC, 0xC1, 0x46, 0xBF, 0x60, 0x75, 0x4E] := by decide +kernel

/-- Vector V-H2 row 8: a key of 65 bytes is hashed first. -/
theorem test_hmac_long_key :
    (Config.hmacSha256 ((List.range 65).map fun k => BitVec.ofNat 8 (k + 1)) [0x61, 0x62, 0x63]).take 8 =
      [0xD0, 0x04, 0x73, 0xB0, 0x37, 0x97, 0xC3, 0x96] := by decide +kernel

/-- Vector V-S2, reading A. -/
theorem test_pktCreate :
    seen (exec (.pktCreate 0xFF 0xFF 0 0) (load [0x00] start))
      (fun t => (output t, t.msgId, t.nvMsg, t.rboot, t.rmsg)) = some (pktA, 1, 1, 474, 1) := by decide +kernel

/-- Vector V-P1: the refusals consume no message id. -/
theorem test_pktCreate_refuses :
    seen (exec (.pktCreate 0 0 0 0) (sized 211)) id = some { sized 211 with err := .length } ∧
    seen (exec (.pktCreate 0 0 0 0) (booted 474 0xFFFFFFFF)) id =
      some { booted 474 0xFFFFFFFF with err := .ctr } := by decide

/-- Vector V-P2 rows 1 and 3. -/
theorem test_pktParse :
    seen (exec .pktParse (load pktA start)) (fun t => (statusWord t, output t, t.rdst, t.rboot, t.rmsg)) =
      some (0x50, [0x00], 0xFF, 474, 1) := by decide +kernel
theorem test_pktParse_policies :
    seen (exec .pktParse { load (pktA.set 5 0x01) start with authOk := true, footerValid := true }) statusWord =
      some 0x08 ∧
    seen (exec .pktParse { load (pktA.set 5 0x01) start with cfg := 5 })
      (fun t => (statusWord t, output t, t.rboot)) = some (0x20, [0x01], 0) := by decide +kernel

/-- Vector V-A2. -/
theorem test_advMsgid :
    seen (exec .advMsgid (booted 1 41)) (fun t => (t.msgId, t.nvMsg, t.rmsg)) = some (42, 42, 42) := by decide
theorem test_advMsgid_refuses :
    seen (exec .advMsgid (booted 1 0xFFFFFFFF)) id = some { booted 1 0xFFFFFFFF with err := .ctr } := by decide

/-- Vector V-A1. -/
theorem test_syncBoot_lower :
    seen (exec (.syncBoot 999) (booted 1000 0)) (fun t => (t.bootCount, t.nvBoot, t.bootAnomaly)) =
      some (999, 999, true) := by decide
theorem test_syncBoot_lower_not_adopted :
    seen (exec (.syncBoot 100) { start with cfg := 3 }) (fun t => (t.bootCount, t.nvBoot, t.bootAnomaly)) =
      some (474, 474, true) := by decide

/-- R236, on a state where the registers and NV differ. -/
theorem test_nvLoad :
    seen (exec .nvLoad { start with nvBoot := 7, nvMsg := 9 }) (fun t => (t.bootCount, t.msgId)) = some (7, 9) := by
  decide

/-- Vector V-X: the order of the checks, and a link event in `IDLE`. -/
theorem test_order_of_checks :
    seen (issue 0x1000010000 (active .rxHunt)) (·.err) = some .illegal ∧
    seen (issue 0x2000000000 { active .rxHunt with ilen := 4097 }) (·.err) = some .busy ∧
    seen (issue 0x2800000055 start) (·.err) = some .state := by decide

/-- R290: a reset takes the counters from NV. -/
theorem test_reset_step :
    seen (step { booted 1 44 with rmsg := 44, cfg := 0, moves := [.reset] })
      (fun t => (t.bootCount, t.msgId, t.rmsg, t.cfg)) = some (1, 44, 0, 7) := by decide

/-- R67: a byte that the channel presents is consumed; in `IDLE` it stays. -/
theorem test_deliver :
    seen (step { active .rxHunt with rxin := [0x55, 0x01], moves := [.deliver] }) (fun t => (t.rxin, t.syncCnt)) =
      some ([0x01], 1) ∧
    seen (step { start with rxin := [0x55], moves := [.deliver] }) (·.rxin) = some [0x55] := by decide

/-- R57: `LOAD` is no command and leaves `STATUS.ERR` as it is. -/
theorem test_load :
    seen (hostLoad hello { start with err := .crc }) (fun t => (input t, t.ilen, t.err)) = some (hello, 5, .crc) := by
  decide

/-- R66: the register map. -/
theorem test_registers :
    hostRead { start with rdst := 0xFE } 0x24 = 0xFE ∧ hostRead start 0x38 = 474 ∧ hostRead start 0x4C = 0 ∧
    hostRead (load hello start) 0x2004 = 0x6F := by decide

/-- R55, R66, R320 (d): a read has a next state at every address, that of a write-only register and one inside a
register among them, and a write to a read-only register is ignored, at an address inside it too. -/
theorem test_host_accesses_go_on :
    seen (step { start with moves := [.read 0x00] }) id = some start ∧
    seen (step { start with moves := [.read 0x09] }) id = some start ∧
    seen (step { start with moves := [.write 0x38 5] }) id = some start := by decide

/-! ### For every statement with hypotheses, a state and operands that meet them

Where a statement has several clauses, each clause has its own, at a boundary of its range. -/

/-- The hypotheses that the whole-instruction statements share: the format's reserved bits (FormatN, FormatS), an
active link (BusyOutsideIdle), an idle block. -/
theorem witness_shared_hypotheses :
    (1 : Word) ≠ 0 ∧ (0x10000 : Word).extractLsb' 16 16 ≠ 0 ∧ (active .txWaitPayAck).lstate ≠ .idle ∧
    start.lstate = .idle := by decide

theorem witness_EncodeOfDecode : decode 0x100000FFFF = .ok (.encHdr 0xFFFF) := by decide

theorem witness_DecodeAcceptsExactlyTheTableRows :
    decode 0x28000000FF = .ok (.linkByte 0xFF) ∧
    (⟨"LINK_BYTE", .B, 0xFFFFFFFF00, 0x2800000000⟩ : TableRow) ∈ opcodeTable ∧
    (⟨"LINK_BYTE", .B, 0xFFFFFFFF00, 0x2800000000⟩ : TableRow).selects 0x28000000FF = true := by decide

theorem witness_IllegalWordWritesOnlyErr :
    (∀ r ∈ opcodeTable, r.selects 0x0100000008 = false) ∧ (∀ r ∈ opcodeTable, r.selects 0x6300000000 = false) ∧
    (0x100 : Word).extractLsb' 8 24 ≠ 0 := by decide

theorem witness_StepRunsTheDecodedCommand :
    { start with moves := [.cmd 0x0800000000, .reset] }.moves = .cmd 0x0800000000 :: [.reset] ∧
    decode 0x0800000000 = .ok .crc32 ∧
    { start with moves := [.write 0x04 0x61], arg := 475 }.moves = [.write 0x04 0x61] ∧
    (0x61 : Word).extractLsb' 8 24 = 0 ∧
    decode ((0x61 : Word).extractLsb' 0 8 ++ { start with arg := 475 }.arg) = .ok (.syncBoot 475) ∧
    { active .rxHunt with rxin := [0x55], moves := [.deliver] }.moves = [.deliver] ∧
    { active .rxHunt with rxin := [0x55], moves := [.deliver] }.lstate ≠ .idle ∧
    { active .rxHunt with rxin := [0x55], moves := [.deliver] }.rxin = [0x55] ∧
    ({ active .rxHunt with moves := [.timeout] }.moves = [.timeout] ∧
      { active .rxHunt with moves := [.timeout] }.lstate ≠ .idle) ∧
    ({ start with rxin := [0x55], moves := [.deliver] }.moves = [.deliver] ∧
      { start with rxin := [0x55], moves := [.deliver] }.lstate = .idle) ∧
    ({ active .rxHunt with moves := [.deliver] }.moves = [.deliver] ∧
      { active .rxHunt with moves := [.deliver] }.rxin = []) ∧
    ({ start with moves := [.timeout] }.moves = [.timeout] ∧ { start with moves := [.timeout] }.lstate = .idle) ∧
    { start with rxin := [0x55], moves := [.arrive 0x01] }.moves = .arrive 0x01 :: [] ∧ start.moves = [] := by
  decide

theorem witness_NopOnlyClearsErr : (0x80000000 : Word) ≠ 0 := by decide

theorem witness_WrCfgWritesTheThreeBits :
    (8 : Word).extractLsb' 3 29 ≠ 0 ∧ (active .rxHunt).lstate ≠ .idle ∧ start.lstate = .idle := by decide

theorem witness_ClrStickyClearsOnlyBootAnomaly :
    (1 : Word) ≠ 0 ∧ (active .rxHunt).lstate ≠ .idle ∧ { start with bootAnomaly := true }.lstate = .idle := by decide

theorem witness_Crc32WritesOnlyRcrc :
    (1 : Word) ≠ 0 ∧ (active .rxHunt).lstate ≠ .idle ∧
    (sized 4104).lstate = .idle ∧ (sized 4104).ilen.toNat ≤ 4104 ∧ (sized 0).lstate = .idle ∧ (sized 0).ilen = 0 := by
  decide

theorem witness_Crc32DetectsAnyChangedByte : (0x69 : Byte) ≠ 0x68 := by decide

theorem witness_FrameHeaderLayoutAndRoundTrip :
    (List.replicate 4096 (0 : Byte)).length ≤ 4096 ∧ ([] : List Byte).length ≤ 4096 :=
  ⟨List.length_replicate.le, by decide⟩

theorem witness_EncHdrBuildsTheHeader :
    (0x10000 : Word).extractLsb' 16 16 ≠ 0 ∧ (active .rxHunt).lstate ≠ .idle ∧
    (sized 4097).lstate = .idle ∧ (sized 4097).ilen.toNat > 4096 ∧
    (sized 4096).lstate = .idle ∧ (sized 4096).ilen.toNat ≤ 4096 := by decide

theorem witness_DecHdrTakesExactlyEightBytes :
    (1 : Word) ≠ 0 ∧ (active .rxHunt).lstate ≠ .idle ∧ start.lstate = .idle ∧
    (sized 7).ilen.toNat < 8 ∧ 8 < (sized 9).ilen.toNat ∧ (sized 8).ilen.toNat = 8 := by decide

theorem witness_FrmEncBuildsTheFrame :
    (0x10000 : Word).extractLsb' 16 16 ≠ 0 ∧ (active .rxHunt).lstate ≠ .idle ∧
    (sized 4097).lstate = .idle ∧ (sized 4097).ilen.toNat > 4096 ∧
    (sized 4096).lstate = .idle ∧ (sized 4096).ilen.toNat ≤ 4096 := by decide

/-- A frame header loaded, with an input length of its own. -/
def framed (h : List Byte) (n : Half) : State := { load h start with ilen := n }

/-- The checks of `FRM_DEC` in their order: seven bytes; 4097 declared; 4096 declared with one byte missing and with
one too many; an empty frame whose crc field is 1, and one whose crc field is 0. -/
theorem witness_FrmDecValidatesInOrder :
    ((sized 7).lstate = .idle ∧ (sized 7).ilen.toNat < 8) ∧
    (let s := framed [0x01, 0x10, 0, 0, 0, 0, 0, 0] 8
     s.lstate = .idle ∧ 8 ≤ s.ilen.toNat ∧ 4096 < (fields (s.memRead .ibuf 0 8)).length.toNat) ∧
    (let s := framed [0x00, 0x10, 0, 0, 0, 0, 0, 0] 4103
     let f := fields (s.memRead .ibuf 0 8)
     8 ≤ s.ilen.toNat ∧ f.length.toNat ≤ 4096 ∧ s.ilen.toNat < 8 + f.length.toNat) ∧
    (let s := framed [0x00, 0x10, 0, 0, 0, 0, 0, 0] 4105
     let f := fields (s.memRead .ibuf 0 8)
     8 ≤ s.ilen.toNat ∧ f.length.toNat ≤ 4096 ∧ 8 + f.length.toNat < s.ilen.toNat) ∧
    (let s := framed [0, 0, 7, 0, 1, 0, 0, 0] 8
     let f := fields (s.memRead .ibuf 0 8)
     s.ilen.toNat = 8 + f.length.toNat ∧ Config.crc32 (s.memRead .ibuf 8 f.length.toNat) ≠ f.crc) ∧
    (let s := framed [0, 0, 7, 0, 0, 0, 0, 0] 8
     let f := fields (s.memRead .ibuf 0 8)
     s.ilen.toNat = 8 + f.length.toNat ∧ Config.crc32 (s.memRead .ibuf 8 f.length.toNat) = f.crc) := by decide +kernel

theorem witness_FrameRoundTrip :
    start.lstate = .idle ∧ (List.replicate 4096 (0x5A : Byte)).length ≤ 4096 :=
  ⟨by decide, List.length_replicate.le⟩

theorem witness_TxStartLatchesAndSendsSync :
    (0x10000 : Word).extractLsb' 16 16 ≠ 0 ∧ (active .rxHunt).lstate ≠ .idle ∧
    (sized 4097).lstate = .idle ∧ (sized 4097).ilen.toNat > 4096 ∧
    (sized 4096).lstate = .idle ∧ (sized 4096).ilen.toNat ≤ 4096 := by decide

/-- The rows of R135: two and three sync runs sent, the events that are no acknowledgement, a payload that fills
IBUF. -/
theorem witness_TransmitTransitionTable :
    (active .txWaitSyncAck).lstate = .txWaitSyncAck ∧
    LinkEvent.byte 0x40 ≠ .byte 0x21 ∧ LinkEvent.timeout ≠ .byte 0x21 ∧
    { active .txWaitSyncAck with txTries := 2 }.lstate = .txWaitSyncAck ∧
    { active .txWaitSyncAck with txTries := 2 }.txTries.toNat < 3 ∧
    { active .txWaitSyncAck with txTries := 3 }.lstate = .txWaitSyncAck ∧
    { active .txWaitSyncAck with txTries := 3 }.txTries.toNat = 3 ∧
    { active .txWaitHdrAck with ilen := 4104 }.lstate = .txWaitHdrAck ∧
    { active .txWaitHdrAck with ilen := 4104 }.ilen.toNat ≤ 4104 ∧
    (active .txWaitPayAck).lstate = .txWaitPayAck := by decide

theorem witness_CleanTransmissionEmitsTheWireFrame :
    (sized 4096).lstate = .idle ∧ (sized 4096).ilen.toNat ≤ 4096 := by decide

theorem witness_TransmissionEndsWithinFiveEvents :
    (sized 4096).lstate = .idle ∧ (sized 4096).ilen.toNat ≤ 4096 ∧
    [LinkEvent.timeout, .timeout, .byte 0x21, .byte 0x21, .byte 0x21].length = 5 := by decide

theorem witness_RxStartClearsAndHunts :
    (1 : Word) ≠ 0 ∧ (active .rxPayload).lstate ≠ .idle ∧ start.lstate = .idle := by decide

theorem witness_LinkEventInIdleIsRefused : start.lstate = .idle := by decide

theorem witness_HuntFindsThreeSyncBytes :
    ({ active .rxHunt with syncCnt := 2 }.lstate = .rxHunt ∧ { active .rxHunt with syncCnt := 2 }.syncCnt.toNat < 3 ∧
      { active .rxHunt with syncCnt := 2 }.syncCnt.toNat = 2) ∧
    ({ active .rxHunt with syncCnt := 1 }.lstate = .rxHunt ∧ { active .rxHunt with syncCnt := 1 }.syncCnt.toNat < 2) ∧
    (0x54 : Byte) ≠ (active .rxHunt).params.syncByte := by decide

theorem witness_WaitStartGivesUpAfterTen :
    ({ active .rxWaitStart with missCnt := 9 }.lstate = .rxWaitStart ∧
      { active .rxWaitStart with missCnt := 9 }.missCnt.toNat < 10 ∧
      { active .rxWaitStart with missCnt := 9 }.missCnt.toNat = 9) ∧
    { active .rxWaitStart with missCnt := 8 }.missCnt.toNat < 9 ∧ (0x41 : Byte) ≠ 0x40 := by decide

/-- A reception in its header with seven bytes received. -/
def headerAt (h : Vector Byte 8) : State := { active .rxHeader with byteIdx := 7, hbuf := h }

/-- The eighth header byte 0x00 after seven bytes that declare 4097, nothing, 1 and 4096 bytes; the crc field 0 and 1;
and the seventh byte. -/
theorem witness_HeaderIsCheckedThenAcknowledged :
    ((headerAt #v[0x01, 0x10, 0, 0, 0, 0, 0, 0]).lstate = .rxHeader ∧
      (headerAt #v[0x01, 0x10, 0, 0, 0, 0, 0, 0]).byteIdx.toNat < 8 ∧
      (headerAt #v[0x01, 0x10, 0, 0, 0, 0, 0, 0]).byteIdx.toNat = 7 ∧
      4096 < (fields ((headerAt #v[0x01, 0x10, 0, 0, 0, 0, 0, 0]).hbuf.setIfInBounds 7 0x00).toList).length.toNat) ∧
    { active .rxHeader with byteIdx := 6 }.byteIdx.toNat < 7 ∧
    (let f := fields ((headerAt #v[0, 0, 9, 0, 0, 0, 0, 0]).hbuf.setIfInBounds 7 0x00).toList
     f.length = 0 ∧ f.crc = 0) ∧
    (let f := fields ((headerAt #v[0, 0, 9, 0, 1, 0, 0, 0]).hbuf.setIfInBounds 7 0x00).toList
     f.length = 0 ∧ f.crc ≠ 0) ∧
    (let f := fields ((headerAt #v[1, 0, 9, 0, 0, 0, 0, 0]).hbuf.setIfInBounds 7 0x00).toList
     1 ≤ f.length.toNat ∧ f.length.toNat ≤ 4096) ∧
    (let f := fields ((headerAt #v[0, 0x10, 9, 0, 0, 0, 0, 0]).hbuf.setIfInBounds 7 0x00).toList
     1 ≤ f.length.toNat ∧ f.length.toNat ≤ 4096) := by decide +kernel

/-- A reception in its payload. -/
def payloadAt (i : BitVec 13) (len : Half) (crc : Word) : State :=
  { active .rxPayload with byteIdx := i, rlen := len, rcrc := crc }

/-- The last byte but one of a payload of 4096 bytes; the only byte of a payload of one, with the CRC32 of "a"
(0xE8B7BE43, vector V-C) and with another. -/
theorem witness_PayloadIsStoredThenVerified :
    ((payloadAt 4094 4096 0).lstate = .rxPayload ∧ (payloadAt 4094 4096 0).rlen.toNat ≤ 4096 ∧
      (payloadAt 4094 4096 0).byteIdx.toNat + 1 < (payloadAt 4094 4096 0).rlen.toNat) ∧
    ((payloadAt 0 1 0xE8B7BE43).lstate = .rxPayload ∧ (payloadAt 0 1 0xE8B7BE43).rlen.toNat ≤ 4096 ∧
      (payloadAt 0 1 0xE8B7BE43).byteIdx.toNat < (payloadAt 0 1 0xE8B7BE43).rlen.toNat ∧
      (payloadAt 0 1 0xE8B7BE43).byteIdx.toNat + 1 = (payloadAt 0 1 0xE8B7BE43).rlen.toNat ∧
      Config.crc32 ((payloadAt 0 1 0xE8B7BE43).memRead .obuf 0 0 ++ [0x61]) = (payloadAt 0 1 0xE8B7BE43).rcrc) ∧
    Config.crc32 ((payloadAt 0 1 0).memRead .obuf 0 0 ++ [0x61]) ≠ (payloadAt 0 1 0).rcrc := by decide +kernel

/-- The CRC32 of a payload of 4096 bytes of which the last is "a". -/
def fullCrc : Word := Config.crc32 ((payloadAt 4095 4096 0).memRead .obuf 0 4095 ++ [0x61])

/-- The bytes received do not depend on the header's crc field. -/
theorem memRead_payloadAt (i : BitVec 13) (len : Half) (c : Word) (n : Nat) :
    (payloadAt i len c).memRead .obuf 0 n = (payloadAt i len 0).memRead .obuf 0 n := rfl

/-- The last byte of a payload of 4096 bytes whose header carries its CRC32. -/
theorem witness_PayloadIsStoredThenVerified_at_the_maximum :
    (payloadAt 4095 4096 fullCrc).lstate = .rxPayload ∧ (payloadAt 4095 4096 fullCrc).rlen.toNat ≤ 4096 ∧
    (payloadAt 4095 4096 fullCrc).byteIdx.toNat + 1 = (payloadAt 4095 4096 fullCrc).rlen.toNat ∧
    Config.crc32 ((payloadAt 4095 4096 fullCrc).memRead .obuf 0 4095 ++ [0x61]) =
      (payloadAt 4095 4096 fullCrc).rcrc := by
  refine ⟨rfl, ?_, ?_, ?_⟩
  · show (4096 : Half).toNat ≤ 4096
    decide
  · show (4095 : BitVec 13).toNat + 1 = (4096 : Half).toNat
    decide
  · rw [memRead_payloadAt]
    show _ = fullCrc
    rw [fullCrc]

theorem witness_LinkAbortEndsAnyActivity :
    (1 : Word) ≠ 0 ∧ (active .txWaitHdrAck).lstate ≠ .idle ∧ start.lstate = .idle := by decide

theorem witness_CleanReceptionDeliversThePayload :
    start.lstate = .idle ∧ (List.replicate 4096 (0x5A : Byte)).length ≤ 4096 ∧
    { start with params := { syncByte := 0x40, key := [], nvInitBoot := 0, nvInitMsg := 0 } }.lstate = .idle :=
  ⟨by decide, List.length_replicate.le, by decide⟩

theorem witness_ReceptionEmitsAtMostThreeAcks : start.lstate = .idle := by decide

theorem witness_Sha256StoresTheDigest :
    (1 : Word) ≠ 0 ∧ (active .rxHunt).lstate ≠ .idle ∧ (sized 4104).lstate = .idle ∧
    (sized 4104).ilen.toNat ≤ 4104 := by decide

theorem witness_HmacIsTheNestedHash :
    testKey = (if testKey.length > 64 then Config.sha256 testKey else testKey) ∧
    Config.sha256 (rep 1 65) = (if (rep 1 65).length > 64 then Config.sha256 (rep 1 65) else rep 1 65) :=
  ⟨by decide, (if_pos (by decide)).symm⟩

theorem witness_PacketLayout :
    (List.replicate 210 (0x5A : Byte)).length ≤ 210 ∧
    packet testKey 1 2 3 4 (List.replicate 210 0x5A) 474 1 =
      packet testKey 1 2 3 4 (List.replicate 210 0x5A) 474 1 := ⟨List.length_replicate.le, rfl⟩

theorem witness_PktCreateBuildsThePacket :
    (active .rxHunt).lstate ≠ .idle ∧ (sized 211).lstate = .idle ∧ 210 < (sized 211).ilen.toNat ∧
    ({ booted 474 0xFFFFFFFF with ilen := 210 }.lstate = .idle ∧
      { booted 474 0xFFFFFFFF with ilen := 210 }.ilen.toNat ≤ 210 ∧
      { booted 474 0xFFFFFFFF with ilen := 210 }.msgId = 0xFFFFFFFF) ∧
    ({ booted 474 0xFFFFFFFE with ilen := 210 }.ilen.toNat ≤ 210 ∧
      { booted 474 0xFFFFFFFE with ilen := 210 }.msgId ≠ 0xFFFFFFFF) := by decide

/-- A packet of zeros loaded: no data, and a tag of zeros. -/
def zeros (n : Nat) : State := load (List.replicate n 0x00) start

/-- The checks of `PKT_PARSE`: four bytes; 44 and 46 bytes with a declared length of 0; a wrong tag under
enforcement; and, with authentication disabled, five bytes that declare one byte of data. -/
theorem witness_PktParseErrorsInOrder :
    ((zeros 4).lstate = .idle ∧ (zeros 4).ilen.toNat < 5) ∧
    (5 ≤ (zeros 44).ilen.toNat ∧ (zeros 44).authEn = true ∧
      (zeros 44).ilen.toNat < 45 + ((input (zeros 44)).getD 4 0).toNat) ∧
    ((zeros 46).authEn = true ∧ 45 + ((input (zeros 46)).getD 4 0).toNat < (zeros 46).ilen.toNat) ∧
    ((zeros 45).authEn = true ∧ (zeros 45).ilen.toNat = 45 + ((input (zeros 45)).getD 4 0).toNat ∧
      slice (input (zeros 45)) (45 - 32) 45 ≠
        Config.hmacSha256 (zeros 45).params.key (slice (input (zeros 45)) 0 (45 - 32)) ∧
      (zeros 45).authEnforce = true) ∧
    (let s := { load [0, 0, 0, 0, 1] start with cfg := 6 }
     5 ≤ s.ilen.toNat ∧ s.authEn = false ∧ s.ilen.toNat < 5 + ((input s).getD 4 0).toNat) := by decide +kernel

/-- What `PKT_PARSE` delivers: `pktA` with equal tags; a wrong tag under the warn policy; and, with authentication
disabled, a header without data. -/
theorem witness_PktParseDelivers :
    ((load pktA start).lstate = .idle ∧ (load pktA start).authEn = true ∧
      (load pktA start).ilen.toNat = 45 + ((input (load pktA start)).getD 4 0).toNat ∧
      slice (input (load pktA start)) (46 - 32) 46 =
        Config.hmacSha256 (load pktA start).params.key (slice (input (load pktA start)) 0 (46 - 32))) ∧
    (let s := { zeros 45 with cfg := 5 }
     s.lstate = .idle ∧ s.authEn = true ∧ s.ilen.toNat = 45 + ((input s).getD 4 0).toNat ∧
      slice (input s) (45 - 32) 45 ≠ Config.hmacSha256 s.params.key (slice (input s) 0 (45 - 32)) ∧
      s.authEnforce = false) ∧
    (let s := { zeros 5 with cfg := 6 }
     s.lstate = .idle ∧ s.authEn = false ∧ 5 + ((input s).getD 4 0).toNat ≤ s.ilen.toNat) := by decide +kernel

theorem witness_PacketRoundTrip :
    start.lstate = .idle ∧ (List.replicate 210 (0x5A : Byte)).length ≤ 210 ∧
    (booted 474 0xFFFFFFFE).msgId ≠ 0xFFFFFFFF ∧ (booted 474 0xFFFFFFFE).lstate = .idle ∧
    (booted 474 0xFFFFFFFE).authEn = true := ⟨by decide, List.length_replicate.le, by decide, by decide, by decide⟩

/-- `pktA` with its length byte changed from 1 to 0 and to 2. -/
theorem witness_ChangedLenByteIsRefused :
    (∀ v ∈ [(0 : Byte), 2],
      let s := load (pktA.set 4 v) start
      s.lstate = .idle ∧ s.authEn = true ∧ v.toNat ≠ ([0x00] : List Byte).length ∧
      input s = (packet testKey 0xFF 0xFF 0 0 [0x00] 474 1).set 4 v) ∧ ([0x00] : List Byte).length ≤ 210 := by
  decide +kernel

theorem witness_AdvMsgidAdvancesAndPersists :
    (1 : Word) ≠ 0 ∧ (active .rxHunt).lstate ≠ .idle ∧ (booted 1 0xFFFFFFFF).lstate = .idle ∧
    (booted 1 0xFFFFFFFF).msgId = 0xFFFFFFFF ∧ (booted 1 0xFFFFFFFE).lstate = .idle ∧
    (booted 1 0xFFFFFFFE).msgId ≠ 0xFFFFFFFF := by decide

theorem witness_SyncBootAdoptsAndFlags :
    (active .rxHunt).lstate ≠ .idle ∧ start.lstate = .idle ∧ start.bootCount.toNat < (475 : Word).toNat ∧
    ((473 : Word).toNat < start.bootCount.toNat ∧ start.adoptLower = true) ∧
    ((473 : Word).toNat < { start with cfg := 3 }.bootCount.toNat ∧ { start with cfg := 3 }.adoptLower = false ∧
      { start with cfg := 3 }.lstate = .idle) := by decide

theorem witness_NvLoadReloadsBothCounters :
    (1 : Word) ≠ 0 ∧ (active .rxHunt).lstate ≠ .idle ∧ start.lstate = .idle ∧ CountersSaved start := by decide

theorem witness_ConsecutivePacketsHaveNoGaps :
    (booted 5 0xFFFFFFFD).lstate = .idle ∧ { booted 5 0xFFFFFFFD with ilen := 210 }.ilen.toNat ≤ 210 ∧
    (booted 5 0xFFFFFFFD).msgId.toNat +
      ([(0x11, 0x22, 0, 0), (0x11, 0x22, 0, 1)] : List (Byte × Byte × Byte × Byte)).length ≤ 0xFFFFFFFF := by decide

theorem witness_MsgIdNeverGoesBack :
    CountersSaved { start with moves := [.cmd 0x6000000000, .reset] } ∧
    seen (Sys2Proof.core.run 2 { start with moves := [.cmd 0x6000000000, .reset] }) (·.msgId) = some 1 := by decide

theorem witness_BusyCheckIsUniform :
    (active .rxHunt).lstate ≠ .idle ∧ anyState .nvLoad = false ∧ anyState .linkTimeout = true ∧
    exec .linkTimeout start = .next { start with err := .state } := ⟨by decide, by decide, by decide, rfl⟩

/-- An error of a command that changes nothing, and one of a `PKT_PARSE` that clears the flags. -/
theorem witness_ErrorsArePrecise :
    (exec .linkTimeout start = .next { start with err := .state } ∧ { start with err := .state }.err ≠ .ok) ∧
    exec .pktParse { start with authOk := true, footerValid := true } = .next { start with err := .short } :=
  ⟨⟨rfl, by decide⟩, rfl⟩

theorem witness_EachCommandReportsItsCodes : exec .advMsgid (booted 1 0xFFFFFFFF) =
    .next { booted 1 0xFFFFFFFF with err := .ctr } := rfl

/-- A command; an illegal word; a command issued through `OP`; a host load, a host read, a byte that arrives and a host
write next to `OP`; a reset. -/
theorem witness_SequencerTransitionRelation :
    exec .linkAbort (active .rxHunt) = .next { start with lresult := .aborted, lcause := .hostAbort } ∧
    step { active .rxHunt with moves := [.cmd 0x0700000000] } = .next { active .rxHunt with err := .illegal } ∧
    step { start with moves := [.write 0x04 0x21] } = .next (active .rxHunt) ∧
    step { start with moves := [.load []] } = .next start ∧
    step { active .rxHunt with moves := [.read 0x04] } = .next (active .rxHunt) ∧
    step { active .rxHunt with moves := [.arrive 0x55] } = .next { active .rxHunt with rxin := [0x55] } ∧
    (step { active .rxHunt with moves := [.write 0x08 0x21] } = .next (active .rxHunt) ∧ 0x08 / 4 ≠ 1) ∧
    { active .rxPayload with moves := [.reset] }.moves = .reset :: [] :=
  ⟨rfl, rfl, rfl, rfl, rfl, rfl, ⟨rfl, by decide⟩, rfl⟩

theorem witness_CommandsNeverWriteTheirInput :
    exec (.linkByte 0x21) { active .txWaitHdrAck with ilen := 0 } = .next (active .txWaitPayAck) := rfl

theorem witness_ObufChangesOnlyWhereStored :
    exec (.linkByte 0x61) (payloadAt 0 2 0) =
      .next { payloadAt 1 2 0 with obuf := [(0, 0x61)] } ∧
    storedAt (.linkByte 0x61) (payloadAt 0 2 0) = (0, 1) ∧ ¬ (0 ≤ 1 ∧ 1 < 0 + 1) := ⟨rfl, by decide, by decide⟩

theorem witness_CountersChangeOnlyWithNv :
    (exec .advMsgid start = .next { start with msgId := 1, nvMsg := 1, rmsg := 1 } ∧
      (1 : Word) ≠ start.msgId ∧ (1 : Word) ≠ start.nvMsg) ∧
    (exec (.syncBoot 475) start = .next { start with bootCount := 475, nvBoot := 475 } ∧
      (475 : Word) ≠ start.bootCount ∧ (475 : Word) ≠ start.nvBoot) := ⟨⟨rfl, by decide, by decide⟩, rfl, by decide, by decide⟩

/-- Two inputs that agree below `ILEN = 5` and differ at index 5. -/
theorem witness_BytesBeyondIlenDoNotMatter :
    ∀ a < (load hello start).ilen.toNat,
      State.byteAt { load hello start with ibuf := cellsAt 0 (hello ++ [0xFF]) } .ibuf a =
        (load hello start).byteAt .ibuf a := by decide

theorem witness_KeyIsReadOnlyByThePacketCommands :
    (∀ d r f q, Instr.sha256 ≠ .pktCreate d r f q) ∧ Instr.sha256 ≠ .pktParse :=
  ⟨fun _ _ _ _ => nofun, nofun⟩

/-- The last byte of each window, reserved addresses next to the registers and the windows, a read of `OP`, and writes
to the read-only registers, at an address inside one and past the IBUF window. -/
theorem witness_StatusAndLstatFields :
    4103 < 4104 ∧ (∀ a ∈ [0x4C, 0x1FFF, 0x3008, 0x3FFF, 0x5008],
      0x4C ≤ a ∧ ¬ (0x2000 ≤ a ∧ a < 0x3008) ∧ ¬ (0x4000 ≤ a ∧ a < 0x5008)) ∧
    { start with moves := [.read 0x04] }.moves = .read 0x04 :: [] ∧
    (∀ a ∈ [0x08, 0x0D, 0x14, 0x48, 0x4C, 0x3008, 0x4000],
      { start with moves := [.write a 5] }.moves = .write a 5 :: [] ∧
        a / 4 ≠ 0 ∧ a / 4 ≠ 1 ∧ a / 4 ≠ 4 ∧ ¬ (0x2000 ≤ a ∧ a < 0x3008)) ∧
    { start with moves := [.write 0x00 475] }.moves = .write 0x00 475 :: [] := by decide

/-- The longest load and one byte more; the last byte of the window; 4104 and 4105 as `ILEN`; both ends of the window
and `ILEN` while a link activity is in progress. -/
theorem witness_LoadSetsTheInput :
    (start.lstate = .idle ∧ (List.replicate 4104 (0 : Byte)).length ≤ 4104 ∧ start.ibuf.wf) ∧
    4104 < (List.replicate 4105 (0 : Byte)).length ∧ (active .rxHunt).lstate ≠ .idle ∧ 4103 < 4104 ∧
    (4104 : Word).toNat ≤ 4104 ∧ 4104 < (4105 : Word).toNat ∧
    (∀ a ∈ [0x2000, 0x3007, 0x10], (0x2000 ≤ a ∧ a < 0x3008) ∨ a = 0x10) ∧
    { start with moves := [.load hello] }.moves = .load hello :: [] ∧
    { start with moves := [.write 0x10 5] }.moves = .write 0x10 5 :: [] :=
  ⟨⟨by decide, List.length_replicate.le, by decide⟩, Nat.lt_of_lt_of_eq (by decide) List.length_replicate.symm,
    by decide, by decide, by decide, by decide, by decide, by decide, by decide⟩

theorem witness_ResetStepSetsTheTable :
    { active .rxPayload with moves := [.reset, .cmd 0] }.moves = .reset :: [.cmd 0] := by decide

/-- A sound state in the middle of a transmission, with data in its buffers. -/
theorem sound_transmitting :
    Sound { load [0x61] start with lstate := .txWaitHdrAck, txTries := 1, hbuf := latch (hdr [0x61] 7),
                                   rlen := 1, rseq := 7, rcrc := 0xE8B7BE43 } :=
  ⟨by decide, by decide, by decide, by decide, ⟨by decide, by decide, by decide⟩, by decide +kernel⟩

theorem witness_EveryStepKeepsSound :
    Sound { start with moves := [.cmd 0x2100000000] } ∧
    step { start with moves := [.cmd 0x2100000000] } = .next (active .rxHunt) :=
  ⟨⟨by decide, by decide, by decide, by decide, ⟨by decide, by decide, trivial⟩, by decide⟩, rfl⟩

theorem witness_SoundStatesRunEveryCommand :
    Sound { load [0x61] start with lstate := .txWaitHdrAck, txTries := 1, hbuf := latch (hdr [0x61] 7),
                                   rlen := 1, rseq := 7, rcrc := 0xE8B7BE43 } := sound_transmitting

end Sys2Proof.Tests
end

