-- ==== Sys2Proof/Proofs/KeyNoninterference.lean ====
section
/-! PROOF. The key is read by `PKT_CREATE` and `PKT_PARSE` alone (R9, R187, R280): every other command commutes with
`withKey`. A command's branches are taken on conditions that the key does not enter, so each proof follows the branches
of its definition with `ite_eq_apply_ite` and shows at each leaf that the state left there differs in the key alone. -/

namespace Sys2Proof.Proofs

open Sys2Proof Sys2Proof.Machine Sys2Proof.Spec

/-- A function is applied to a choice by being applied in each branch. -/
theorem ite_eq_apply_ite {α β : Type} {f : α → β} {c : Prop} [Decidable c] {a b : α} {a' b' : β}
    (ha : a' = f a) (hb : b' = f b) : (if c then a' else b') = f (if c then a else b) := by
  rw [ha, hb, apply_ite f]

section

variable {k : List Byte} {s : State}

/-! ### The accessors -/

@[simp] theorem withKey_lstate : (withKey k s).lstate = s.lstate := rfl

@[simp] theorem byteAt_withKey (sp : Config.Space) (i : Nat) : (withKey k s).byteAt sp i = s.byteAt sp i := by
  cases sp <;> rfl

@[simp] theorem registerWord_withKey (a : Nat) : registerWord (withKey k s) a = registerWord s a := rfl

/-- No host read answers the key: neither a window, nor a register, nor a reserved address. -/
@[simp] theorem hostRead_withKey (a : Nat) : hostRead (withKey k s) a = hostRead s a := by
  simp only [hostRead, byteAt_withKey, registerWord_withKey]

/-! ### The checks and the completion -/

/-- The busy check does not read the key. -/
theorem whenIdle_withKey {r r' : Result} (h : r' = mapNext (withKey k) r) :
    whenIdle (withKey k s) r' = mapNext (withKey k) (whenIdle s r) := ite_eq_apply_ite h rfl

/-- The busy check before a command that always goes on. -/
theorem whenIdle_next_withKey {t t' : State} (h : t' = withKey k t) :
    whenIdle (withKey k s) (.next t') = mapNext (withKey k) (whenIdle s (.next t)) :=
  whenIdle_withKey (congrArg Host.Outcome.next h)

/-- The bound of a buffer access does not read the key. -/
theorem withinBuffer_withKey {n : Nat} {r r' : Result} (h : r' = mapNext (withKey k) r) :
    withinBuffer n r' = mapNext (withKey k) (withinBuffer n r) := ite_eq_apply_ite h rfl

/-- Completing a command does not read the key. -/
theorem complete_withKey {t t' : State} (h : t' = withKey k t) : complete t' = withKey k (complete t) := by
  rw [h]; rfl

/-! ### The frame codec and the start of a transmission -/

theorem encHdr_withKey (q : Half) : encHdr q (withKey k s) = withKey k (encHdr q s) :=
  ite_eq_apply_ite rfl rfl

theorem decHdr_withKey : decHdr (withKey k s) = withKey k (decHdr s) :=
  ite_eq_apply_ite rfl (ite_eq_apply_ite rfl rfl)

theorem frmEnc_withKey (q : Half) : frmEnc q (withKey k s) = withKey k (frmEnc q s) :=
  ite_eq_apply_ite rfl rfl

/-- The five checks of R117, then the delivery. -/
theorem frmDec_withKey : frmDec (withKey k s) = withKey k (frmDec s) :=
  ite_eq_apply_ite rfl <| ite_eq_apply_ite rfl <| ite_eq_apply_ite rfl <| ite_eq_apply_ite rfl <|
    ite_eq_apply_ite rfl rfl

theorem txStart_withKey (q : Half) : txStart q (withKey k s) = withKey k (txStart q s) :=
  ite_eq_apply_ite rfl rfl

/-! ### The counters -/

theorem advMsgid_withKey : advMsgid (withKey k s) = withKey k (advMsgid s) :=
  ite_eq_apply_ite rfl rfl

/-- Above, below (under either policy, R234) and at the boot count. -/
theorem syncBoot_withKey (v : Word) : syncBoot v (withKey k s) = withKey k (syncBoot v s) :=
  ite_eq_apply_ite rfl (ite_eq_apply_ite (complete_withKey (ite_eq_apply_ite rfl rfl)) rfl)

/-! ### The link events: one lemma per transition of the sequencer -/

theorem txSyncAck_withKey (ev : LinkEvent) :
    txSyncAck ev (withKey k s) = mapNext (withKey k) (txSyncAck ev s) :=
  ite_eq_apply_ite rfl (ite_eq_apply_ite rfl rfl)

theorem txHdrAck_withKey (ev : LinkEvent) :
    txHdrAck ev (withKey k s) = mapNext (withKey k) (txHdrAck ev s) :=
  ite_eq_apply_ite (withinBuffer_withKey rfl) rfl

theorem txPayAck_withKey (ev : LinkEvent) :
    txPayAck ev (withKey k s) = mapNext (withKey k) (txPayAck ev s) :=
  ite_eq_apply_ite rfl rfl

/-- Stated for any state that is another with the key `k`, because the parser's states call it on record updates. -/
theorem rxFinish_withKey {t : State} (h : t = withKey k s) : rxFinish t = mapNext (withKey k) (rxFinish s) := by
  subst h
  exact withinBuffer_withKey (ite_eq_apply_ite rfl rfl)

theorem rxHunt_withKey : ∀ ev, rxHunt ev (withKey k s) = mapNext (withKey k) (rxHunt ev s)
  | .byte _ => ite_eq_apply_ite (ite_eq_apply_ite rfl rfl) rfl
  | .timeout => rfl

theorem rxWaitStart_withKey : ∀ ev, rxWaitStart ev (withKey k s) = mapNext (withKey k) (rxWaitStart ev s)
  | .byte _ => ite_eq_apply_ite rfl (ite_eq_apply_ite rfl rfl)
  | .timeout => rfl

/-- Oversized, an empty payload that is finished at once, or on to the payload. -/
theorem rxHeaderDone_withKey {t : State} (h : t = withKey k s) :
    rxHeaderDone t = mapNext (withKey k) (rxHeaderDone s) := by
  subst h
  exact ite_eq_apply_ite rfl (ite_eq_apply_ite (rxFinish_withKey rfl) rfl)

theorem rxHeader_withKey : ∀ ev, rxHeader ev (withKey k s) = mapNext (withKey k) (rxHeader ev s)
  | .byte _ => ite_eq_apply_ite (ite_eq_apply_ite (rxHeaderDone_withKey rfl) rfl) rfl
  | .timeout => rfl

theorem rxPayload_withKey : ∀ ev, rxPayload ev (withKey k s) = mapNext (withKey k) (rxPayload ev s)
  | .byte _ => withinBuffer_withKey (ite_eq_apply_ite (rxFinish_withKey rfl) rfl)
  | .timeout => rfl

/-- A link event in every `LSTATE`: the key does not enter the choice of the transition, nor the transition. -/
theorem linkEvent_withKey (ev : LinkEvent) :
    linkEvent ev (withKey k s) = mapNext (withKey k) (linkEvent ev s) := by
  unfold linkEvent
  rw [withKey_lstate]
  cases s.lstate with
  | idle => rfl
  | rxHunt => exact rxHunt_withKey ev
  | rxWaitStart => exact rxWaitStart_withKey ev
  | rxHeader => exact rxHeader_withKey ev
  | rxPayload => exact rxPayload_withKey ev
  | txWaitSyncAck => exact txSyncAck_withKey ev
  | txWaitHdrAck => exact txHdrAck_withKey ev
  | txWaitPayAck => exact txPayAck_withKey ev

theorem execLinkAbort_withKey : execLinkAbort (withKey k s) = mapNext (withKey k) (execLinkAbort s) :=
  congrArg Host.Outcome.next (complete_withKey (ite_eq_apply_ite rfl rfl))

/-! ### Every command -/

/-- Every command but the two packet commands does the same with another key. -/
theorem exec_withKey (i : Instr) (hcreate : ∀ d r f q, i ≠ .pktCreate d r f q) (hparse : i ≠ .pktParse) :
    exec i (withKey k s) = mapNext (withKey k) (exec i s) := by
  cases i with
  | nop => rfl
  | wrCfg | clrSticky | rxStart | nvLoad => exact whenIdle_next_withKey rfl
  | crc32 | sha256 => exact whenIdle_withKey (withinBuffer_withKey rfl)
  | encHdr q => exact whenIdle_next_withKey (encHdr_withKey q)
  | decHdr => exact whenIdle_next_withKey decHdr_withKey
  | frmEnc q => exact whenIdle_next_withKey (frmEnc_withKey q)
  | frmDec => exact whenIdle_next_withKey frmDec_withKey
  | txStart q => exact whenIdle_next_withKey (txStart_withKey q)
  | linkByte b => exact linkEvent_withKey (.byte b)
  | linkTimeout => exact linkEvent_withKey .timeout
  | linkAbort => exact execLinkAbort_withKey
  | pktCreate d r f q => exact absurd rfl (hcreate d r f q)
  | pktParse => exact absurd rfl hparse
  | advMsgid => exact whenIdle_next_withKey advMsgid_withKey
  | syncBoot v => exact whenIdle_next_withKey (syncBoot_withKey v)

end

/-! ### The obligation -/

/-- Settles O54, command by command and register by register: another key changes no other command's effect and no host
read's answer. -/
theorem keyIsReadOnlyByThePacketCommands : Obligations.KeyIsReadOnlyByThePacketCommands :=
  ⟨fun i _ _ hcreate hparse => exec_withKey i hcreate hparse, fun _ _ a => hostRead_withKey a⟩

end Sys2Proof.Proofs
end

/-! PROOF. What the commands do to the registers, the buffers, the counters and the link sequencer (R20 to R42). The
text says once, as two relations, every way in which a link event and a command that needs `IDLE` can end, with the
guard of each way and the state it leaves; the statements about every command are read off the relations. -/

namespace Sys2Proof.Proofs

open Sys2Proof Sys2Proof.Machine Sys2Proof.Spec Sys2Proof.Safety

/-! ### Every way a link event can end -/

/-- A header byte received: stored in HBUF and counted (R160). -/
def storeHeaderByte (b : Byte) (s : State) : State :=
  { s with hbuf := s.hbuf.setIfInBounds s.byteIdx.toNat b, byteIdx := s.byteIdx + 1 }

/-- A payload byte received: stored in OBUF and counted (R162). -/
def storePayloadByte (b : Byte) (s : State) : State :=
  { s.writeObuf s.byteIdx.toNat [b] with byteIdx := s.byteIdx + 1 }

/-- The header received last, taken apart into the result registers (R160). -/
def takeHeader (s : State) : State := setFields (fields s.hbuf.toList) s

/-- A header acknowledged: the payload's bytes are counted from 0 (R161). -/
def ackHeader (s : State) : State := { emit [Config.ackByte] s with byteIdx := 0 }

/-- The rows of R324's table for the link events, each with its guard and the state it leaves (R135, R153 to R163).
The two rows that end in `rx_finish` say so; `rxFinish_next` says what that leaves. -/
inductive LinkStep : LinkEvent → State → State → Prop where
  | refused {ev s} (hl : s.lstate = .idle) : LinkStep ev s (takeError .state s)
  | huntOther {b s} (hl : s.lstate = .rxHunt) (hb : b ≠ s.params.syncByte) :
      LinkStep (.byte b) s (complete { s with syncCnt := 0 })
  | huntSync {b s} (hl : s.lstate = .rxHunt) (hb : b = s.params.syncByte) (hc : s.syncCnt ≠ 2) :
      LinkStep (.byte b) s (complete { s with syncCnt := s.syncCnt + 1 })
  | huntRun {b s} (hl : s.lstate = .rxHunt) (hb : b = s.params.syncByte) (hc : s.syncCnt = 2) :
      LinkStep (.byte b) s (complete (emit [Config.ackByte]
        { s with syncCnt := s.syncCnt + 1, missCnt := 0, lstate := .rxWaitStart }))
  | huntTimeout {s} (hl : s.lstate = .rxHunt) :
      LinkStep .timeout s (complete (linkEnd .rxNone .noData 0 0 s))
  | startFound {b s} (hl : s.lstate = .rxWaitStart) (hb : b = Config.startByte) :
      LinkStep (.byte b) s (complete { s with byteIdx := 0, lstate := .rxHeader })
  | startMiss {b s} (hl : s.lstate = .rxWaitStart) (hb : b ≠ Config.startByte) (hc : s.missCnt ≠ 9) :
      LinkStep (.byte b) s (complete { s with missCnt := s.missCnt + 1 })
  | startLimit {b s} (hl : s.lstate = .rxWaitStart) (hb : b ≠ Config.startByte) (hc : s.missCnt = 9) :
      LinkStep (.byte b) s
        (complete (linkEnd .rxNone .startNotFound 1 10 { s with missCnt := s.missCnt + 1 }))
  | startTimeout {s} (hl : s.lstate = .rxWaitStart) :
      LinkStep .timeout s (complete (linkEnd .rxNone .startTimeout 1 0 s))
  | headerByte {b s} (hl : s.lstate = .rxHeader) (hi : s.byteIdx.toNat < 7) :
      LinkStep (.byte b) s (complete (storeHeaderByte b s))
  | headerOversize {b s u} (hl : s.lstate = .rxHeader) (hi : s.byteIdx = 7)
      (hu : u = takeHeader (storeHeaderByte b s)) (hn : 4096 < u.rlen.toNat) :
      LinkStep (.byte b) s (complete (linkEnd .rxNone .oversize 4096 (u.rlen.setWidth 32) u))
  | headerEmpty {b s u t} (hl : s.lstate = .rxHeader) (hi : s.byteIdx = 7)
      (hu : u = takeHeader (storeHeaderByte b s)) (hn : u.rlen = 0) (hf : rxFinish (ackHeader u) = .next t) :
      LinkStep (.byte b) s t
  | headerDone {b s u} (hl : s.lstate = .rxHeader) (hi : s.byteIdx = 7)
      (hu : u = takeHeader (storeHeaderByte b s)) (hn : u.rlen.toNat ≤ 4096) (hz : u.rlen ≠ 0) :
      LinkStep (.byte b) s (complete { ackHeader u with lstate := .rxPayload })
  | headerTimeout {s} (hl : s.lstate = .rxHeader) :
      LinkStep .timeout s (complete (linkEnd .rxNone .headerShort 8 (s.byteIdx.setWidth 32) s))
  | payloadByte {b s} (hl : s.lstate = .rxPayload) (hi : s.byteIdx.toNat + 1 ≤ 4104)
      (hn : s.byteIdx.toNat + 1 ≠ s.rlen.toNat) :
      LinkStep (.byte b) s (complete (storePayloadByte b s))
  | payloadLast {b s t} (hl : s.lstate = .rxPayload) (hi : s.byteIdx.toNat + 1 ≤ 4104)
      (hn : s.byteIdx.toNat + 1 = s.rlen.toNat) (hf : rxFinish (storePayloadByte b s) = .next t) :
      LinkStep (.byte b) s t
  | payloadTimeout {s} (hl : s.lstate = .rxPayload) :
      LinkStep .timeout s
        (complete (linkEnd .rxNone .payloadShort (s.rlen.setWidth 32) (s.byteIdx.setWidth 32) s))
  | syncAcked {ev s} (hl : s.lstate = .txWaitSyncAck) (ha : isAck ev = true) :
      LinkStep ev s
        (complete { emit ([Config.startByte] ++ s.hbuf.toList) s with lstate := .txWaitHdrAck })
  | syncRetry {ev s} (hl : s.lstate = .txWaitSyncAck) (ha : isAck ev = false) (hc : s.txTries ≠ 3) :
      LinkStep ev s (complete (emit (syncBytes s) { s with txTries := s.txTries + 1 }))
  | syncFailed {ev s} (hl : s.lstate = .txWaitSyncAck) (ha : isAck ev = false) (hc : s.txTries = 3) :
      LinkStep ev s (complete (linkEnd .txFail .syncUnacked 3 3 s))
  | headerAcked {ev s} (hl : s.lstate = .txWaitHdrAck) (ha : isAck ev = true) :
      LinkStep ev s (complete { emit (input s) s with lstate := .txWaitPayAck })
  | headerFailed {ev s} (hl : s.lstate = .txWaitHdrAck) (ha : isAck ev = false) :
      LinkStep ev s (complete (linkEnd .txFail .headerUnacked 0 0 s))
  | payloadAcked {ev s} (hl : s.lstate = .txWaitPayAck) (ha : isAck ev = true) :
      LinkStep ev s (complete (linkEnd .txOk .none 0 0 s))
  | payloadFailed {ev s} (hl : s.lstate = .txWaitPayAck) (ha : isAck ev = false) :
      LinkStep ev s (complete (linkEnd .txFail .payloadUnacked 0 0 s))

section

variable {ev : LinkEvent} {s t : State}

/-! #### The sequencer's narrow counters as numbers -/

theorem succ_eq_syncRun_iff (c : BitVec 2) : c + 1 = BitVec.ofNat 2 Config.syncRun ↔ c = 2 := by
  decide +revert

theorem succ_eq_startSearchLimit_iff (c : BitVec 4) : c + 1 = BitVec.ofNat 4 Config.startSearchLimit ↔ c = 9 := by
  decide +revert

theorem lt_syncRetries_iff (c : BitVec 2) : c.toNat < Config.syncRetries ↔ c ≠ 3 := by decide +revert

/-- `BYTE_IDX` does not wrap below its width. -/
theorem byteIdx_succ_toNat {i : BitVec 13} (h : i.toNat < 8191) : (i + 1).toNat = i.toNat + 1 := by
  bv_omega

/-! #### Each state of the sequencer -/

theorem rxHunt_step (hl : s.lstate = .rxHunt) (h : rxHunt ev s = .next t) : LinkStep ev s t := by
  cases ev with
  | timeout => cases h; exact .huntTimeout hl
  | byte b =>
    simp only [rxHunt, succ_eq_syncRun_iff] at h
    split at h
    next hb =>
      split at h
      next hc => cases h; exact .huntRun hl hb hc
      next hc => cases h; exact .huntSync hl hb hc
    next hb => cases h; exact .huntOther hl hb

theorem rxWaitStart_step (hl : s.lstate = .rxWaitStart) (h : rxWaitStart ev s = .next t) : LinkStep ev s t := by
  cases ev with
  | timeout => cases h; exact .startTimeout hl
  | byte b =>
    simp only [rxWaitStart, succ_eq_startSearchLimit_iff] at h
    split at h
    next hb => cases h; exact .startFound hl hb
    next hb =>
      split at h
      next hc => cases h; exact .startLimit hl hb hc
      next hc => cases h; exact .startMiss hl hb hc

theorem rxHeader_step (hl : s.lstate = .rxHeader) (h : rxHeader ev s = .next t) : LinkStep ev s t := by
  cases ev with
  | timeout => cases h; exact .headerTimeout hl
  | byte b =>
    obtain ⟨hi, h⟩ := rxHeader_byte_next h
    have hi : s.byteIdx.toNat < 8 := hi
    have hsucc : (s.byteIdx + 1).toNat = s.byteIdx.toNat + 1 := byteIdx_succ_toNat (by omega)
    rcases h with ⟨h8, h⟩ | ⟨h8, rfl⟩
    · have h8 : (s.byteIdx + 1).toNat = 8 := h8
      have hi : s.byteIdx = 7 := BitVec.eq_of_toNat_eq (by simp; omega)
      rcases rxHeaderDone_next h with ⟨hn, rfl⟩ | ⟨hn, hf⟩ | ⟨hn, hz, rfl⟩
      · exact .headerOversize hl hi rfl hn
      · exact .headerEmpty hl hi rfl hn hf
      · exact .headerDone hl hi rfl hn hz
    · have h8 : (s.byteIdx + 1).toNat ≠ 8 := h8
      exact .headerByte hl (by omega)

theorem rxPayload_step (hl : s.lstate = .rxPayload) (h : rxPayload ev s = .next t) : LinkStep ev s t := by
  cases ev with
  | timeout => cases h; exact .payloadTimeout hl
  | byte b =>
    obtain ⟨hi, h⟩ := rxPayload_byte_next h
    have hi : s.byteIdx.toNat + 1 ≤ 4104 := hi
    have hsucc : (s.byteIdx + 1).toNat = s.byteIdx.toNat + 1 := byteIdx_succ_toNat (by omega)
    rcases h with ⟨hn, hf⟩ | ⟨hn, rfl⟩
    · exact .payloadLast hl hi (hsucc.symm.trans hn) hf
    · exact .payloadByte hl hi fun he => hn (hsucc.trans he)

theorem txSyncAck_step (hl : s.lstate = .txWaitSyncAck) (h : txSyncAck ev s = .next t) : LinkStep ev s t := by
  simp only [txSyncAck, lt_syncRetries_iff] at h
  split at h
  next ha => cases h; exact .syncAcked hl ha
  next ha =>
    split at h
    next hc => cases h; exact .syncRetry hl (Bool.eq_false_iff.2 ha) hc
    next hc => cases h; exact .syncFailed hl (Bool.eq_false_iff.2 ha) (not_not.1 hc)

theorem txHdrAck_step (hl : s.lstate = .txWaitHdrAck) (h : txHdrAck ev s = .next t) : LinkStep ev s t := by
  unfold txHdrAck at h
  split at h
  next ha =>
    obtain ⟨-, h⟩ := withinBuffer_next h
    cases h; exact .headerAcked hl ha
  next ha => cases h; exact .headerFailed hl (Bool.eq_false_iff.2 ha)

theorem txPayAck_step (hl : s.lstate = .txWaitPayAck) (h : txPayAck ev s = .next t) : LinkStep ev s t := by
  unfold txPayAck at h
  split at h
  next ha => cases h; exact .payloadAcked hl ha
  next ha => cases h; exact .payloadFailed hl (Bool.eq_false_iff.2 ha)

/-- All that a link event can do, in every `LSTATE`. -/
theorem linkEvent_next (h : linkEvent ev s = .next t) : LinkStep ev s t := by
  unfold linkEvent at h
  split at h
  next hl => cases h; exact .refused hl
  next hl => exact rxHunt_step hl h
  next hl => exact rxWaitStart_step hl h
  next hl => exact rxHeader_step hl h
  next hl => exact rxPayload_step hl h
  next hl => exact txSyncAck_step hl h
  next hl => exact txHdrAck_step hl h
  next hl => exact txPayAck_step hl h

end

/-! ### Every way a command that needs `IDLE` can end -/

/-- The data length that a packet in IBUF declares (R84, R211). -/
def declaredLen (s : State) : Nat := ((input s).getD 4 0).toNat

/-- The frame header in IBUF, taken apart (R113, R117). -/
def inputHeader (s : State) : HdrFields := fields (s.memRead .ibuf 0 8)

/-- What a command that needs `LSTATE = IDLE` can do in `IDLE`. An error other than `PKT_PARSE`'s writes `ERR` alone
(R270), and whether it can come up tells only that the command then leaves the sequencer in `IDLE`. -/
inductive IdleEffect : Instr → State → State → Prop where
  | failed {i s} (e : Err) (hn : nextLState i s = .idle) : IdleEffect i s (takeError e s)
  | wrCfg {c s} : IdleEffect (.wrCfg c) s (complete { s with cfg := c })
  | clrSticky {s} : IdleEffect .clrSticky s (complete { s with bootAnomaly := false })
  | crc32 {s} : IdleEffect .crc32 s (complete { s with rcrc := Config.crc32 (input s) })
  | encHdr {q s} : IdleEffect (.encHdr q) s
      (complete { setEncoded q (s.writeObuf 0 (hdr (input s) q)) with olen := 8 })
  | decHdr {s} : IdleEffect .decHdr s (complete (setFields (inputHeader s) s))
  | frmEnc {q s} (hn : s.ilen.toNat ≤ 4096) : IdleEffect (.frmEnc q) s
      (complete { setEncoded q ((s.writeObuf 0 (hdr (input s) q)).writeObuf 8 (input s)) with
        olen := BitVec.ofNat 16 (8 + s.ilen.toNat) })
  | frmDec {f s} (hf : f = inputHeader s) (hn : f.length.toNat ≤ 4096) : IdleEffect .frmDec s
      (complete { setFields f (s.writeObuf 0 (s.memRead .ibuf 8 f.length.toNat)) with olen := f.length })
  | txStart {q s} (hn : s.ilen.toNat ≤ 4096) : IdleEffect (.txStart q) s
      (complete <| emit (syncBytes s)
        { setEncoded q (clearLink s) with
          hbuf := latch (hdr (input s) q), txTries := 1, lstate := .txWaitSyncAck })
  | rxStart {s} : IdleEffect .rxStart s (complete { clearLink s with olen := 0, lstate := .rxHunt })
  | sha256 {s} : IdleEffect .sha256 s
      (complete { s.writeObuf 0 (Config.sha256 (input s)) with olen := 32 })
  | pktCreate {d r f q s} (hn : s.ilen.toNat ≤ 210) (hm : s.msgId ≠ Config.msgIdMax) :
      IdleEffect (.pktCreate d r f q) s
        (complete
          { (advanceMsgId s).writeObuf 0 (packet s.params.key d r f q (input s) s.bootCount (s.msgId + 1)) with
            olen := BitVec.ofNat 16 (45 + s.ilen.toNat), rboot := s.bootCount, rmsg := s.msgId + 1 })
  | parseFailed {s} (e : Err) : IdleEffect .pktParse s (takeError e (clearParseFlags s))
  | parsed {s} (ok : Bool) : IdleEffect .pktParse s
      (complete (pktDeliver (input s) (declaredLen s) ok (clearParseFlags s)))
  | advMsgid {s} (hm : s.msgId ≠ Config.msgIdMax) :
      IdleEffect .advMsgid s (complete { advanceMsgId s with rmsg := s.msgId + 1 })
  | syncKept {v s} (a : Bool) : IdleEffect (.syncBoot v) s (complete { s with bootAnomaly := a })
  | syncAdopted {v s} (a : Bool) :
      IdleEffect (.syncBoot v) s (complete (adoptBootCount v { s with bootAnomaly := a }))
  | nvLoad {s} : IdleEffect .nvLoad s (complete (loadCounters s))

/-- What every command can do, in every `LSTATE`: be refused with `ERR_BUSY`, run in `IDLE`, or be one of the four
that every state takes (R266). -/
inductive Effect : Instr → State → State → Prop where
  | busy {i s} (ha : anyState i = false) (hl : s.lstate ≠ .idle) : Effect i s (takeError .busy s)
  | idle {i s t} (hl : s.lstate = .idle) (he : IdleEffect i s t) : Effect i s t
  | nop {s} : Effect .nop s (complete s)
  | link {ev s t} (hs : LinkStep ev s t) : Effect (eventInstr ev) s t
  | abortIdle {s} (hl : s.lstate = .idle) : Effect .linkAbort s (complete s)
  | abort {s} (hl : s.lstate ≠ .idle) :
      Effect .linkAbort s (complete (linkEnd .aborted .hostAbort 0 0 s))

section

variable {i : Instr} {s t : State}

/-! #### The pseudocode of each command with a check of its own -/

theorem encHdr_effect (q : Half) (hl : s.lstate = .idle) : IdleEffect (.encHdr q) s (encHdr q s) := by
  unfold Machine.encHdr
  split
  next => exact .failed _ hl
  next => exact .encHdr

theorem decHdr_effect (hl : s.lstate = .idle) : IdleEffect .decHdr s (decHdr s) := by
  unfold Machine.decHdr
  split
  next => exact .failed _ hl
  next =>
    split
    next => exact .failed _ hl
    next => exact .decHdr

theorem frmEnc_effect (q : Half) (hl : s.lstate = .idle) : IdleEffect (.frmEnc q) s (frmEnc q s) := by
  unfold Machine.frmEnc
  split
  next => exact .failed _ hl
  next hn => exact .frmEnc (not_lt.1 hn)

/-- The five checks of R117, then the delivery. -/
theorem frmDec_effect (hl : s.lstate = .idle) : IdleEffect .frmDec s (frmDec s) := by
  simp only [Machine.frmDec]
  split
  next => exact .failed _ hl
  next =>
    split
    next => exact .failed _ hl
    next hn =>
      iterate 3
        split
        next => exact .failed _ hl
      exact .frmDec rfl (not_lt.1 hn)

theorem txStart_effect (q : Half) (hl : s.lstate = .idle) : IdleEffect (.txStart q) s (txStart q s) := by
  unfold Machine.txStart
  split
  next hn =>
    refine .failed _ ?_
    have hn : ¬ s.ilen.toNat ≤ 4096 := not_le.2 hn
    simp [nextLState, hl, hn]
  next hn => exact .txStart (not_lt.1 hn)

theorem pktCreate_effect (d r f q : Byte) (hl : s.lstate = .idle) :
    IdleEffect (.pktCreate d r f q) s (pktCreate d r f q s) := by
  unfold Machine.pktCreate
  split
  next => exact .failed _ hl
  next hn =>
    split
    next => exact .failed _ hl
    next hm => exact .pktCreate (not_lt.1 hn) hm

/-- Every failure of R211 keeps the flags cleared; past the checks the packet is delivered, with whichever verdict. -/
theorem pktParse_effect : IdleEffect .pktParse s (pktParse (clearParseFlags s)) := by
  simp only [Machine.pktParse]
  split
  next => exact .parseFailed _
  next =>
    split
    next =>
      iterate 3
        split
        next => exact .parseFailed _
      exact .parsed _
    next =>
      split
      next => exact .parseFailed _
      next => exact .parsed false

theorem advMsgid_effect (hl : s.lstate = .idle) : IdleEffect .advMsgid s (advMsgid s) := by
  unfold Machine.advMsgid
  split
  next => exact .failed _ hl
  next hm => exact .advMsgid hm

theorem syncBoot_effect (v : Word) : IdleEffect (.syncBoot v) s (syncBoot v s) := by
  unfold Machine.syncBoot
  split
  next => exact .syncAdopted s.bootAnomaly
  next =>
    split
    next =>
      split
      next => exact .syncAdopted true
      next => exact .syncKept true
    next => exact .syncKept s.bootAnomaly

/-! #### Every command -/

/-- A command behind the busy check does what its pseudocode does in `IDLE`. -/
theorem whenIdle_effect {k : Result} (ha : anyState i = false)
    (he : s.lstate = .idle → k = .next t → IdleEffect i s t) (h : whenIdle s k = .next t) : Effect i s t := by
  rcases whenIdle_next h with ⟨hl, hk⟩ | ⟨hl, rfl⟩
  · exact .idle hl (he hl hk)
  · exact .busy ha hl

/-- The same for a command whose pseudocode always goes on. -/
theorem whenIdle_next_effect {u : State} (ha : anyState i = false)
    (he : s.lstate = .idle → IdleEffect i s u) (h : whenIdle s (.next u) = .next t) : Effect i s t := by
  refine whenIdle_effect ha (fun hl hk => ?_) h
  injection hk with hk
  exact hk ▸ he hl

/-- The same for a command that accesses a buffer up to a bound. -/
theorem withinBuffer_effect {n : Nat} {u : State} (ha : anyState i = false) (he : IdleEffect i s u)
    (h : whenIdle s (withinBuffer n (.next u)) = .next t) : Effect i s t := by
  refine whenIdle_effect ha (fun _ hk => ?_) h
  obtain ⟨-, hk⟩ := withinBuffer_next hk
  injection hk with hk
  exact hk ▸ he

theorem linkAbort_effect (h : execLinkAbort s = .next t) : Effect .linkAbort s t := by
  unfold execLinkAbort at h
  split at h
  next hl => cases h; exact .abortIdle hl
  next hl => cases h; exact .abort hl

/-- All that a command can do. -/
theorem exec_next (h : exec i s = .next t) : Effect i s t := by
  cases i with
  | nop => cases h; exact .nop
  | wrCfg c => exact whenIdle_next_effect rfl (fun _ => .wrCfg) h
  | clrSticky => exact whenIdle_next_effect rfl (fun _ => .clrSticky) h
  | crc32 => exact withinBuffer_effect rfl .crc32 h
  | encHdr q => exact whenIdle_next_effect rfl (encHdr_effect q) h
  | decHdr => exact whenIdle_next_effect rfl decHdr_effect h
  | frmEnc q => exact whenIdle_next_effect rfl (frmEnc_effect q) h
  | frmDec => exact whenIdle_next_effect rfl frmDec_effect h
  | txStart q => exact whenIdle_next_effect rfl (txStart_effect q) h
  | rxStart => exact whenIdle_next_effect rfl (fun _ => .rxStart) h
  | linkByte b => exact .link (linkEvent_next (ev := .byte b) h)
  | linkTimeout => exact .link (linkEvent_next (ev := .timeout) h)
  | linkAbort => exact linkAbort_effect h
  | sha256 => exact withinBuffer_effect rfl .sha256 h
  | pktCreate d r f q => exact whenIdle_next_effect rfl (pktCreate_effect d r f q) h
  | pktParse => exact whenIdle_next_effect rfl (fun _ => pktParse_effect) h
  | advMsgid => exact whenIdle_next_effect rfl advMsgid_effect h
  | syncBoot v => exact whenIdle_next_effect rfl (fun _ => syncBoot_effect v) h
  | nvLoad => exact whenIdle_next_effect rfl (fun _ => .nvLoad) h

end

end Sys2Proof.Proofs

/-! ### The counters and NV (R37, R62, R232) -/

namespace Sys2Proof.Proofs

open Sys2Proof Sys2Proof.Machine Sys2Proof.Spec Sys2Proof.Safety

/-- What a link event can change: its result registers, the link record with its counters, the payload's buffer and
the bytes emitted. Everything else stays as it was. -/
abbrev LinkFrame (s t : State) : Prop :=
  t = { s with err := t.err, olen := t.olen, rlen := t.rlen, rseq := t.rseq, rcrc := t.rcrc,
               lstate := t.lstate, lresult := t.lresult, lcause := t.lcause, syncCnt := t.syncCnt,
               missCnt := t.missCnt, txTries := t.txTries, byteIdx := t.byteIdx, lexp := t.lexp, lact := t.lact,
               hbuf := t.hbuf, obuf := t.obuf, txout := t.txout }

/-- What a command can do to the counters and to NV: leave them, advance the message id, adopt a boot count, or reload
both from NV. -/
inductive CounterEffect (i : Instr) (s t : State) : Prop where
  | kept (hboot : t.bootCount = s.bootCount) (hmsg : t.msgId = s.msgId)
      (hnvBoot : t.nvBoot = s.nvBoot) (hnvMsg : t.nvMsg = s.nvMsg)
  | advanced (hi : i = .advMsgid ∨ ∃ d r f q, i = .pktCreate d r f q) (hmax : s.msgId ≠ Config.msgIdMax)
      (hboot : t.bootCount = s.bootCount) (hmsg : t.msgId = s.msgId + 1)
      (hnvBoot : t.nvBoot = s.nvBoot) (hnvMsg : t.nvMsg = s.msgId + 1)
  | adopted (v : Word) (hi : i = .syncBoot v) (hboot : t.bootCount = v) (hmsg : t.msgId = s.msgId)
      (hnvBoot : t.nvBoot = v) (hnvMsg : t.nvMsg = s.nvMsg)
  | loaded (hi : i = .nvLoad) (hboot : t.bootCount = s.nvBoot) (hmsg : t.msgId = s.nvMsg)
      (hnvBoot : t.nvBoot = s.nvBoot) (hnvMsg : t.nvMsg = s.nvMsg)

section

variable {i : Instr} {ev : LinkEvent} {s t : State}

/-- `rx_finish` changes no more than a link event may. -/
theorem rxFinish_frame (h : rxFinish s = .next t) : LinkFrame s t := by
  obtain ⟨-, ⟨-, rfl⟩ | ⟨-, rfl⟩⟩ := rxFinish_next h <;> rfl

theorem LinkStep.frame (h : LinkStep ev s t) : LinkFrame s t := by
  cases h with
  | headerOversize hl hi hu hn => subst hu; rfl
  | headerEmpty hl hi hu hn hf =>
    subst hu
    rw [rxFinish_frame hf]; rfl
  | headerDone hl hi hu hn hz => subst hu; rfl
  | payloadLast hl hi hn hf => rw [rxFinish_frame hf]; rfl
  | _ => rfl

theorem LinkStep.counters (h : LinkStep ev s t) : CounterEffect i s t := by
  exact .kept (by rw [h.frame]) (by rw [h.frame]) (by rw [h.frame]) (by rw [h.frame])

theorem IdleEffect.counters (h : IdleEffect i s t) : CounterEffect i s t := by
  cases h with
  | @pktCreate d r f q _ hn hm => exact .advanced (.inr ⟨d, r, f, q, rfl⟩) hm rfl rfl rfl rfl
  | advMsgid hm => exact .advanced (.inl rfl) hm rfl rfl rfl rfl
  | syncAdopted a => exact .adopted _ rfl rfl rfl rfl rfl
  | nvLoad => exact .loaded rfl rfl rfl rfl rfl
  | _ => exact .kept rfl rfl rfl rfl

/-- What every command does to the counters and to NV. -/
theorem exec_counters (h : exec i s = .next t) : CounterEffect i s t := by
  cases exec_next h with
  | idle hl he => exact he.counters
  | link hs => exact hs.counters
  | _ => exact .kept rfl rfl rfl rfl

/-- Whatever a command does to the counters, it leaves NV equal to them (R37). -/
theorem CounterEffect.saved (hs : CountersSaved s) (h : CounterEffect i s t) : CountersSaved t := by
  obtain ⟨hboot, hmsg⟩ := hs
  cases h with
  | kept hb hm hnb hnm => exact ⟨hb.trans (hboot.trans hnb.symm), hm.trans (hmsg.trans hnm.symm)⟩
  | advanced _ _ hb hm hnb hnm => exact ⟨hb.trans (hboot.trans hnb.symm), hm.trans hnm.symm⟩
  | adopted _ _ hb hm hnb hnm => exact ⟨hb.trans hnb.symm, hm.trans (hmsg.trans hnm.symm)⟩
  | loaded _ hb hm hnb hnm => exact ⟨hb.trans hnb.symm, hm.trans hnm.symm⟩

/-- No command takes the message id back: it stays, advances below its maximum (R204), or is reloaded from NV, which
holds it. -/
theorem CounterEffect.msgId_le (hs : CountersSaved s) (h : CounterEffect i s t) : s.msgId.toNat ≤ t.msgId.toNat := by
  cases h with
  | kept _ hmsg => rw [hmsg]
  | advanced _ hmax _ hmsg =>
    have hmax : s.msgId ≠ 0xFFFFFFFF#32 := hmax
    rw [hmsg]; bv_omega
  | adopted _ _ _ hmsg => rw [hmsg]
  | loaded _ _ hmsg => rw [hmsg, hs.2]

end

/-- Settles O52, from the four things a command can do to the counters. -/
theorem countersChangeOnlyWithNv : Obligations.CountersChangeOnlyWithNv := by
  intro i s t h
  cases exec_counters h with
  | kept hboot hmsg hnvBoot hnvMsg =>
    exact ⟨absurd hmsg, absurd hboot, absurd hnvMsg, absurd hnvBoot⟩
  | advanced hi _ hboot hmsg hnvBoot hnvMsg =>
    have hsaved : t.nvMsg = t.msgId := hnvMsg.trans hmsg.symm
    exact ⟨fun _ => ⟨hsaved, hi.imp_right .inr⟩, absurd hboot, fun _ => hsaved, absurd hnvBoot⟩
  | adopted v hi hboot hmsg hnvBoot hnvMsg =>
    have hsaved : t.nvBoot = t.bootCount := hnvBoot.trans hboot.symm
    exact ⟨absurd hmsg, fun _ => ⟨hsaved, .inr ⟨v, hi⟩⟩, absurd hnvMsg, fun _ => hsaved⟩
  | loaded hi hboot hmsg hnvBoot hnvMsg =>
    have hsavedMsg : t.nvMsg = t.msgId := hnvMsg.trans hmsg.symm
    have hsavedBoot : t.nvBoot = t.bootCount := hnvBoot.trans hboot.symm
    exact ⟨fun _ => ⟨hsavedMsg, .inr (.inl hi)⟩, fun _ => ⟨hsavedBoot, .inl hi⟩,
      fun _ => hsavedMsg, fun _ => hsavedBoot⟩

end Sys2Proof.Proofs

/-! ### Every way a step can end (R320) -/

namespace Sys2Proof.Proofs

open Sys2Proof Sys2Proof.Machine Sys2Proof.Spec Sys2Proof.Safety

/-- What a step can do: run one command on the state without its move and without the byte presented; change no more
than `ERR`, `ARG`, the channel's bytes and the moves (an illegal word, a write of `ARG`, an arrival, an access that is
ignored, a wait); set the input in `IDLE`; or reset the block. -/
inductive StepEffect (s t : State) : Prop where
  | command (i : Instr) (u : State) (hu : u = { s with rxin := u.rxin, moves := u.moves })
      (h : exec i u = .next t)
  | aside (h : t = { s with err := t.err, arg := t.arg, rxin := t.rxin, moves := t.moves })
  | input (hl : s.lstate = .idle) (h : t = { s with ibuf := t.ibuf, ilen := t.ilen, moves := t.moves })
      (hn : s.ilen.toNat ≤ Config.bufCap → t.ilen.toNat ≤ Config.bufCap) (hw : s.ibuf.wf → t.ibuf.wf)
  | reset (rest : List Move) (h : t = resetBlock { s with moves := rest })

section

variable {s t : State} {rest : List Move}

/-- All that a decoded word can do: run its command, or write `ERR_ILLEGAL`. -/
theorem issueDecoded_next {d : Except DecodeError Instr} (h : issueDecoded d s = .next t) :
    (∃ i, d = .ok i ∧ exec i s = .next t) ∨ (∃ e, d = .error e ∧ t = takeError .illegal s) := by
  cases d with
  | ok i => exact .inl ⟨i, rfl, h⟩
  | error e => cases h; exact .inr ⟨e, rfl, rfl⟩

theorem issueDecoded_effect {d : Except DecodeError Instr}
    (h : issueDecoded d { s with moves := rest } = .next t) : StepEffect s t := by
  obtain ⟨i, -, h⟩ | ⟨e, -, rfl⟩ := issueDecoded_next h
  · exact .command i _ rfl h
  · exact .aside rfl

/-- The host's load sets the input (R57). -/
theorem hostLoad_effect {bs : List Byte} (h : hostLoad bs { s with moves := rest } = .next t) :
    StepEffect s t := by
  obtain ⟨hl, hn, rfl⟩ := hostLoad_next h
  refine .input hl rfl (fun _ => ?_) fun hw => Memory.store_wf hw 0 bs (by omega)
  exact (BitVec.toNat_ofNat ..).le.trans ((Nat.mod_le ..).trans hn)

/-- A host write of the IBUF window or of `ILEN` sets the input; a write of `OP` issues a command (R57, R66). -/
theorem hostWrite_effect {a : Nat} {v : Word} (h : hostWrite a v { s with moves := rest } = .next t) :
    StepEffect s t := by
  obtain ⟨ha, hl, rfl⟩ | ⟨-, h⟩ | rfl := hostWrite_next h
  · refine .input hl rfl id fun hw => Memory.store_wf hw _ _ ?_
    have hwin := (ibufWindow_iff a).1 ha
    show a - 0x2000 + 1 ≤ 4104
    omega
  · obtain ⟨-, rfl⟩ | ⟨-, h⟩ | ⟨-, hl, hv, rfl⟩ | rfl := writeRegister_next h
    · exact .aside rfl
    · exact issueDecoded_effect h
    · refine .input hl rfl (fun _ => ?_) id
      exact (Nat.mod_le ..).trans hv
    · exact .aside rfl
  · exact .aside rfl

/-- All that a step can do. -/
theorem step_effect (h : step s = .next t) : StepEffect s t := by
  obtain ⟨-, rfl⟩ | ⟨m, rest, -, h⟩ := step_next h
  · exact .aside rfl
  obtain ⟨w, -, h⟩ | ⟨bs, -, h⟩ | ⟨a, v, -, h⟩ | ⟨a, -, rfl⟩ | ⟨-, rfl⟩ | ⟨b, -, rfl⟩ |
    ⟨-, rfl | ⟨b, rxin, -, -, h⟩⟩ | ⟨-, rfl | ⟨-, h⟩⟩ := runMove_next h
  · exact issueDecoded_effect h
  · exact hostLoad_effect h
  · exact hostWrite_effect h
  · exact .aside rfl
  · exact .reset rest rfl
  · exact .aside rfl
  · exact .aside rfl
  · exact .command _ _ rfl h
  · exact .aside rfl
  · exact .command _ _ rfl h

/-- A step does not take the message id back, and NV then holds both counters. -/
theorem step_counters (hs : CountersSaved s) (h : step s = .next t) :
    s.msgId.toNat ≤ t.msgId.toNat ∧ CountersSaved t := by
  cases step_effect h with
  | command i u hu h =>
    have hmsg : u.msgId = s.msgId := by rw [hu]
    have hsaved : CountersSaved u := by rw [hu]; exact hs
    exact ⟨hmsg ▸ (exec_counters h).msgId_le hsaved, (exec_counters h).saved hsaved⟩
  | aside h => rw [h]; exact ⟨Nat.le_refl _, hs⟩
  | input _ h => rw [h]; exact ⟨Nat.le_refl _, hs⟩
  | reset rest h => rw [h]; exact ⟨by simp [hs.2], rfl, rfl⟩

/-- A run that goes on for a step more makes that step first. -/
theorem run_succ_next {M : Host.Core} {s t : M.State} {n : Nat} (h : M.run (n + 1) s = .next t) :
    ∃ u, M.step s = .next u ∧ M.run n u = .next t := by
  rw [Host.Core.run] at h
  split at h
  next u hu => exact ⟨u, hu, h⟩
  next => cases h
  next => cases h

end

/-- Settles O45, by induction on the number of steps. -/
theorem msgIdNeverGoesBack : Obligations.MsgIdNeverGoesBack := by
  intro n
  induction n with
  | zero =>
    intro s t hs h
    cases h
    exact ⟨Nat.le_refl _, hs⟩
  | succ n ih =>
    intro s t hs h
    obtain ⟨u, hu, h⟩ := run_succ_next h
    obtain ⟨hle, hsaved⟩ := step_counters hs hu
    obtain ⟨hle', hsaved'⟩ := ih u t hsaved h
    exact ⟨hle.trans hle', hsaved'⟩

end Sys2Proof.Proofs

/-! ### The invariants the rules name (R22, R23, R31, R34 to R37, R133, R322) -/

namespace Sys2Proof.Proofs

open Sys2Proof Sys2Proof.Machine Sys2Proof.Spec Sys2Proof.Safety

section

variable {i : Instr} {ev : LinkEvent} {s t : State}

/-! #### What `CountersSound` says in each phase of the sequencer -/

theorem countersSound_rxHunt (hl : s.lstate = .rxHunt) :
    CountersSound s ↔ s.syncCnt.toNat < 3 ∧ s.missCnt = 0 ∧ s.byteIdx = 0 ∧ s.olen = 0 := by
  simp only [CountersSound, hl]
  exact ⟨fun ⟨_, _, h⟩ => h, fun h => ⟨by simp [h], by simp [h], h⟩⟩

theorem countersSound_rxWaitStart (hl : s.lstate = .rxWaitStart) :
    CountersSound s ↔ s.missCnt.toNat < 10 ∧ s.byteIdx = 0 ∧ s.olen = 0 := by
  simp only [CountersSound, hl]
  exact ⟨fun ⟨_, _, h⟩ => h, fun h => ⟨h.1.le, by simp [h], h⟩⟩

theorem countersSound_rxHeader (hl : s.lstate = .rxHeader) :
    CountersSound s ↔ s.missCnt.toNat < 10 ∧ s.byteIdx.toNat < 8 ∧ s.olen = 0 := by
  simp only [CountersSound, hl]
  exact ⟨fun ⟨_, _, h⟩ => h, fun h => ⟨by omega, by omega, h⟩⟩

theorem countersSound_rxPayload (hl : s.lstate = .rxPayload) :
    CountersSound s ↔
      s.missCnt.toNat < 10 ∧ s.rlen.toNat ≤ 4096 ∧ s.byteIdx.toNat < s.rlen.toNat ∧ s.olen = 0 := by
  simp only [CountersSound, hl]
  exact ⟨fun ⟨_, _, h⟩ => h, fun h => ⟨by omega, by omega, h⟩⟩

theorem countersSound_transmitting (hl : transmitting s.lstate = true) :
    CountersSound s ↔ 1 ≤ s.txTries.toNat ∧ s.missCnt = 0 ∧ s.byteIdx = 0 ∧ s.ilen.toNat ≤ 4096 := by
  cases h : s.lstate with
  | idle | rxHunt | rxWaitStart | rxHeader | rxPayload => rw [h] at hl; cases hl
  | txWaitSyncAck | txWaitHdrAck | txWaitPayAck =>
    simp only [CountersSound, h]
    exact ⟨fun ⟨_, _, h⟩ => h, fun h => ⟨by simp [h], by simp [h], h⟩⟩

/-! #### Sound states, by the phase of the sequencer -/

/-- What `Sound` asks of the sequencer in `IDLE`: the link record with its counters. -/
structure IdleRecordSound (s : State) : Prop where
  fits : resultFits s.lcause s.lresult = true
  quantities : s.lcause = .none → s.lexp = 0 ∧ s.lact = 0
  miss : s.missCnt.toNat ≤ 10
  index : s.byteIdx.toNat ≤ 4096

theorem idleRecordSound_of_sound (hs : Sound s) : IdleRecordSound s := by
  obtain ⟨-, -, -, ⟨hfit, hnone, -⟩, ⟨hmiss, hidx, -⟩, -⟩ := hs
  exact ⟨hfit, hnone, hmiss, hidx⟩

/-- In `IDLE` no phase of an activity asks for more than the record. -/
theorem sound_of_idle (hl : t.lstate = .idle) (hsaved : CountersSaved t) (hbuf : BuffersSound t)
    (hflag : FlagsSound t) (hrec : IdleRecordSound t) : Sound t :=
  ⟨hsaved, hbuf, hflag, ⟨hrec.fits, hrec.quantities, absurd hl⟩,
    ⟨hrec.miss, hrec.index, by rw [hl]; trivial⟩, fun h => by rw [hl] at h; cases h⟩

/-- While receiving there is no latched payload to describe. -/
theorem sound_of_receiving (hl : transmitting t.lstate = false) (hsaved : CountersSaved t) (hbuf : BuffersSound t)
    (hflag : FlagsSound t) (hrec : LinkRecordSound t) (hcnt : CountersSound t) : Sound t :=
  ⟨hsaved, hbuf, hflag, hrec, hcnt, fun h => by rw [hl] at h; cases h⟩

/-! #### The link events: one lemma per invariant -/

/-- `rx_finish` ends the reception, with a record that fits (R154, R163). -/
theorem rxFinish_idle (hmiss : s.missCnt.toNat ≤ 10) (hidx : s.byteIdx.toNat ≤ 4096) (h : rxFinish s = .next t) :
    t.lstate = .idle ∧ IdleRecordSound t := by
  obtain ⟨-, ⟨-, rfl⟩ | ⟨-, rfl⟩⟩ := rxFinish_next h
  · exact ⟨rfl, rfl, nofun, hmiss, hidx⟩
  · exact ⟨rfl, rfl, fun _ => ⟨rfl, rfl⟩, hmiss, hidx⟩

theorem rxFinish_lstate (h : rxFinish s = .next t) : t.lstate = .idle := by
  obtain ⟨-, ⟨-, rfl⟩ | ⟨-, rfl⟩⟩ := rxFinish_next h <;> rfl

/-- `rx_finish` stores nothing, and delivers no more bytes than OBUF holds. -/
theorem rxFinish_buffers (h : rxFinish s = .next t) :
    t.obuf = s.obuf ∧ (t.olen = s.olen ∨ t.olen.toNat ≤ Config.bufCap) := by
  obtain ⟨hlen, ⟨-, rfl⟩ | ⟨-, rfl⟩⟩ := rxFinish_next h
  · exact ⟨rfl, .inl rfl⟩
  · exact ⟨rfl, .inr hlen⟩

/-- A link event stores to OBUF the byte received in `RX_PAYLOAD` and nothing else (R162). -/
theorem LinkStep.obuf (h : LinkStep ev s t) :
    t.obuf = s.obuf ∨ ∃ b, ev = .byte b ∧ s.lstate = .rxPayload ∧ s.byteIdx.toNat + 1 ≤ 4104 ∧
      t.obuf = s.obuf.store s.byteIdx.toNat [b] := by
  cases h with
  | headerOversize _ _ hu _ | headerDone _ _ hu _ _ => subst hu; exact .inl rfl
  | headerEmpty _ _ hu _ hf => subst hu; exact .inl (rxFinish_buffers hf).1
  | @payloadByte b _ hl hi _ => exact .inr ⟨b, rfl, hl, hi, rfl⟩
  | @payloadLast b _ _ hl hi _ hf => exact .inr ⟨b, rfl, hl, hi, (rxFinish_buffers hf).1⟩
  | _ => exact .inl rfl

/-- A link event leaves `OLEN`, or delivers what a reception stored (R163). -/
theorem LinkStep.olen (h : LinkStep ev s t) : t.olen = s.olen ∨ t.olen.toNat ≤ Config.bufCap := by
  cases h with
  | headerOversize _ _ hu _ | headerDone _ _ hu _ _ => subst hu; exact .inl rfl
  | headerEmpty _ _ hu _ hf => subst hu; exact (rxFinish_buffers hf).2
  | payloadLast _ _ _ hf => exact (rxFinish_buffers hf).2
  | _ => exact .inl rfl

theorem LinkStep.buffersSound (hs : BuffersSound s) (h : LinkStep ev s t) : BuffersSound t := by
  obtain ⟨hilen, holen, hib, hob⟩ := hs
  refine ⟨by rw [h.frame]; exact hilen, ?_, by rw [h.frame]; exact hib, ?_⟩
  · obtain hkept | hle := h.olen
    · exact hkept ▸ holen
    · exact hle
  · obtain hkept | ⟨b, -, -, hi, hstored⟩ := h.obuf
    · exact hkept ▸ hob
    · exact hstored ▸ Memory.store_wf hob _ _ hi

theorem syncCnt_succ_lt {c : BitVec 2} (h : c.toNat < 3) (hc : c ≠ 2) : (c + 1).toNat < 3 := by
  decide +revert

theorem missCnt_succ_lt {c : BitVec 4} (h : c.toNat < 10) (hc : c ≠ 9) : (c + 1).toNat < 10 := by
  decide +revert

theorem txTries_succ_pos {c : BitVec 2} (hc : c ≠ 3) : 1 ≤ (c + 1).toNat := by decide +revert

/-- While no activity is in progress a link event is refused (R153). -/
theorem LinkStep.eq_of_idle (hl : s.lstate = .idle) (h : LinkStep ev s t) : t = takeError .state s := by
  cases h with
  | refused => rfl
  | _ => simp_all

/-- During an activity a link event ends it with a record that fits, or goes on with the record it found. -/
theorem LinkStep.record (hl : s.lstate ≠ .idle) (hcnt : CountersSound s) (h : LinkStep ev s t) :
    (t.lstate = .idle ∧ IdleRecordSound t) ∨
    (t.lresult = s.lresult ∧ t.lcause = s.lcause ∧ t.lexp = s.lexp ∧ t.lact = s.lact ∧ CountersSound t) := by
  obtain ⟨hmiss, hidx, -⟩ := id hcnt
  cases h with
  | refused hl' => exact absurd hl' hl
  | huntOther hl =>
    obtain ⟨-, hcnt⟩ := (countersSound_rxHunt hl).1 hcnt
    exact .inr ⟨rfl, rfl, rfl, rfl, (countersSound_rxHunt (by exact hl)).2 ⟨by simp, hcnt⟩⟩
  | huntSync hl _ hc =>
    obtain ⟨hsync, hcnt⟩ := (countersSound_rxHunt hl).1 hcnt
    exact .inr ⟨rfl, rfl, rfl, rfl, (countersSound_rxHunt (by exact hl)).2 ⟨syncCnt_succ_lt hsync hc, hcnt⟩⟩
  | huntRun hl _ hc =>
    obtain ⟨-, -, hcnt⟩ := (countersSound_rxHunt hl).1 hcnt
    exact .inr ⟨rfl, rfl, rfl, rfl, (countersSound_rxWaitStart rfl).2 ⟨by simp, hcnt⟩⟩
  | startFound hl =>
    obtain ⟨hmiss, -, hol⟩ := (countersSound_rxWaitStart hl).1 hcnt
    exact .inr ⟨rfl, rfl, rfl, rfl, (countersSound_rxHeader rfl).2 ⟨hmiss, by simp, hol⟩⟩
  | startMiss hl _ hc =>
    obtain ⟨hmiss, hcnt⟩ := (countersSound_rxWaitStart hl).1 hcnt
    exact .inr ⟨rfl, rfl, rfl, rfl, (countersSound_rxWaitStart (by exact hl)).2 ⟨missCnt_succ_lt hmiss hc, hcnt⟩⟩
  | startLimit _ _ hc => exact .inl ⟨rfl, rfl, nofun, by simp [hc], hidx⟩
  | headerByte hl hi =>
    obtain ⟨hmiss, -, hol⟩ := (countersSound_rxHeader hl).1 hcnt
    have hsucc : (s.byteIdx + 1).toNat < 8 := by rw [byteIdx_succ_toNat (by omega)]; omega
    exact .inr ⟨rfl, rfl, rfl, rfl, (countersSound_rxHeader (by exact hl)).2 ⟨hmiss, hsucc, hol⟩⟩
  | headerOversize _ hi hu =>
    subst hu
    have hidx : (s.byteIdx + 1).toNat ≤ 4096 := by simp [hi]
    exact .inl ⟨rfl, rfl, nofun, hmiss, hidx⟩
  | @headerEmpty b _ _ _ _ _ hu _ hf =>
    subst hu
    exact .inl (rxFinish_idle (s := ackHeader (takeHeader (storeHeaderByte b s))) hmiss (by simp [ackHeader]) hf)
  | headerDone hl _ hu hn hz =>
    subst hu
    obtain ⟨hmiss, -, hol⟩ := (countersSound_rxHeader hl).1 hcnt
    exact .inr ⟨rfl, rfl, rfl, rfl,
      (countersSound_rxPayload rfl).2 ⟨hmiss, hn, BitVec.toNat_pos_of_ne_zero hz, hol⟩⟩
  | payloadByte hl hi hn =>
    obtain ⟨hmiss, hlen, hidx, hol⟩ := (countersSound_rxPayload hl).1 hcnt
    have hsucc : (s.byteIdx + 1).toNat < s.rlen.toNat := by rw [byteIdx_succ_toNat (by omega)]; omega
    exact .inr ⟨rfl, rfl, rfl, rfl, (countersSound_rxPayload (by exact hl)).2 ⟨hmiss, hlen, hsucc, hol⟩⟩
  | @payloadLast b _ _ hl hi hn hf =>
    obtain ⟨-, hlen, -⟩ := (countersSound_rxPayload hl).1 hcnt
    have hsucc : (s.byteIdx + 1).toNat ≤ 4096 := by rw [byteIdx_succ_toNat (by omega)]; omega
    exact .inl (rxFinish_idle (s := storePayloadByte b s) hmiss hsucc hf)
  | syncAcked hl | headerAcked hl =>
    have htx : transmitting s.lstate = true := by rw [hl]; rfl
    exact .inr ⟨rfl, rfl, rfl, rfl, (countersSound_transmitting rfl).2 ((countersSound_transmitting htx).1 hcnt)⟩
  | syncRetry hl _ hc =>
    have htx : transmitting s.lstate = true := by rw [hl]; rfl
    obtain ⟨-, hcnt⟩ := (countersSound_transmitting htx).1 hcnt
    exact .inr ⟨rfl, rfl, rfl, rfl,
      (countersSound_transmitting (by exact htx)).2 ⟨txTries_succ_pos hc, hcnt⟩⟩
  | payloadAcked => exact .inl ⟨rfl, rfl, fun _ => ⟨rfl, rfl⟩, hmiss, hidx⟩
  | huntTimeout | startTimeout | headerTimeout | payloadTimeout | syncFailed | headerFailed | payloadFailed =>
    exact .inl ⟨rfl, rfl, nofun, hmiss, hidx⟩

/-- A transmission that goes on keeps the latched header and what it describes (R133). -/
theorem LinkStep.headerMatches (hhdr : HeaderMatchesPayload s) (h : LinkStep ev s t) : HeaderMatchesPayload t := by
  cases h with
  | syncAcked hl | headerAcked hl | syncRetry hl => exact fun _ => hhdr (by rw [hl]; rfl)
  | headerEmpty _ _ _ _ hf | payloadLast _ _ _ hf => rw [HeaderMatchesPayload, rxFinish_lstate hf]; nofun
  | huntOther hl | huntSync hl | startMiss hl | headerByte hl | payloadByte hl | refused hl =>
    intro ht
    have ht : transmitting s.lstate = true := ht
    rw [hl] at ht
    cases ht
  | _ => exact nofun

/-- Every link event keeps the invariants. -/
theorem LinkStep.sound (hs : Sound s) (h : LinkStep ev s t) : Sound t := by
  have hidle := idleRecordSound_of_sound hs
  obtain ⟨hsaved, hbuf, hflag, ⟨hfit, hnone, hres⟩, hcnt, hhdr⟩ := hs
  by_cases hl : s.lstate = .idle
  · rw [h.eq_of_idle hl]
    exact sound_of_idle hl hsaved hbuf hflag ⟨hidle.fits, hidle.quantities, hidle.miss, hidle.index⟩
  have hsaved' : CountersSaved t := by rw [h.frame]; exact hsaved
  have hflag' : FlagsSound t := by rw [h.frame]; exact hflag
  have hbuf' : BuffersSound t := h.buffersSound hbuf
  obtain ⟨hl', hrec⟩ | ⟨hresult, hcause, hexp, hact, hcnt'⟩ := h.record hl hcnt
  · exact sound_of_idle hl' hsaved' hbuf' hflag' hrec
  · refine ⟨hsaved', hbuf', hflag', ⟨?_, ?_, fun _ => hresult.trans (hres hl)⟩, hcnt', h.headerMatches hhdr⟩
    · rw [hresult, hcause]; exact hfit
    · rw [hcause, hexp, hact]; exact hnone

/-! #### The commands that need `IDLE` -/

/-- The fields of the sequencer that `Sound` speaks of. -/
def sequencer (s : State) : LState × LResult × LCause × Word × Word × BitVec 4 × BitVec 13 :=
  (s.lstate, s.lresult, s.lcause, s.lexp, s.lact, s.missCnt, s.byteIdx)

/-- A command that leaves the sequencer in `IDLE` as it was answers for the rest of the state alone. -/
theorem sound_of_sequencer_eq (hs : Sound s) (hl : s.lstate = .idle) (hseq : sequencer t = sequencer s)
    (hsaved : CountersSaved t) (hbuf : BuffersSound t) (hflag : FlagsSound t) : Sound t := by
  obtain ⟨hfit, hnone, hmiss, hidx⟩ := idleRecordSound_of_sound hs
  simp only [sequencer, Prod.mk.injEq] at hseq
  obtain ⟨hl', hresult, hcause, hexp, hact, hmiss', hidx'⟩ := hseq
  refine sound_of_idle (hl'.trans hl) hsaved hbuf hflag ⟨?_, ?_, hmiss' ▸ hmiss, hidx' ▸ hidx⟩
  · rw [hcause, hresult]; exact hfit
  · rw [hcause, hexp, hact]; exact hnone

/-- A delivered packet sets exactly one of `AUTH_OK` and `AUTH_WARN`, or, with `AUTH_EN = 0`, none (R31). -/
theorem setParseFlags_flagsSound (authEn ok : Bool) : FlagsSound (setParseFlags authEn ok s) := by
  cases authEn <;> cases ok <;> simp [FlagsSound]

theorem IdleEffect.flagsSound (hs : FlagsSound s) (h : IdleEffect i s t) : FlagsSound t := by
  cases h with
  | parseFailed => exact ⟨nofun, rfl⟩
  | parsed ok => exact setParseFlags_flagsSound (s := s) s.authEn ok
  | _ => exact hs

theorem IdleEffect.buffersSound (hs : BuffersSound s) (h : IdleEffect i s t) : BuffersSound t := by
  obtain ⟨hilen, holen, hib, hob⟩ := hs
  have stored {m : Memory} (hm : m.wf) (k : Nat) (bs : List Byte) (hk : k + bs.length ≤ 4104) : (m.store k bs).wf :=
    Memory.store_wf hm k bs hk
  have hcap : Config.bufCap = 4104 := rfl
  cases h with
  | encHdr => exact ⟨hilen, by simp [hcap], hib, stored hob 0 _ (by simp)⟩
  | frmEnc hn => exact ⟨hilen, by simp; omega, hib, stored (stored hob 0 _ (by simp)) 8 _ (by simp; omega)⟩
  | frmDec _ hn => exact ⟨hilen, by simp; omega, hib, stored hob 0 _ (by simp; omega)⟩
  | sha256 => exact ⟨hilen, by simp [hcap], hib, stored hob 0 _ (by simp)⟩
  | pktCreate hn => exact ⟨hilen, by simp; omega, hib, stored hob 0 _ (by simp; omega)⟩
  | parsed ok =>
    have hlt : declaredLen s < 256 := BitVec.isLt _
    exact ⟨hilen, by simp [pktDeliver]; omega, hib, stored hob 0 _ (by simp; omega)⟩
  | rxStart => exact ⟨hilen, by simp, hib, hob⟩
  | _ => exact ⟨hilen, holen, hib, hob⟩

/-- Every command in `IDLE` keeps the invariants. -/
theorem IdleEffect.sound (hs : Sound s) (hl : s.lstate = .idle) (h : IdleEffect i s t) : Sound t := by
  have hsound := hs
  obtain ⟨hsaved, hbuf, hflag, -⟩ := hs
  have hsaved' := h.counters.saved hsaved
  have hbuf' := h.buffersSound hbuf
  have hflag' := h.flagsSound hflag
  cases h with
  | rxStart =>
    exact sound_of_receiving rfl hsaved' hbuf' hflag' ⟨rfl, fun _ => ⟨rfl, rfl⟩, fun _ => rfl⟩
      ((countersSound_rxHunt rfl).2 (by simp))
  | txStart hn =>
    exact ⟨hsaved', hbuf', hflag', ⟨rfl, fun _ => ⟨rfl, rfl⟩, fun _ => rfl⟩,
      (countersSound_transmitting rfl).2 ⟨by simp, by simp, by simp, hn⟩, fun _ => ⟨rfl, rfl, rfl⟩⟩
  | _ => exact sound_of_sequencer_eq hsound hl rfl hsaved' hbuf' hflag'

/-! #### Every command and every step -/

/-- Every command keeps the invariants. -/
theorem exec_sound (hs : Sound s) (h : exec i s = .next t) : Sound t := by
  cases exec_next h with
  | busy ha hl => exact hs
  | idle hl he => exact he.sound hs hl
  | nop => exact hs
  | link hstep => exact hstep.sound hs
  | abortIdle hl => exact hs
  | abort hl =>
    obtain ⟨-, -, hmiss, hidx⟩ := idleRecordSound_of_sound hs
    obtain ⟨hsaved, hbuf, hflag, -⟩ := hs
    exact sound_of_idle rfl hsaved hbuf hflag ⟨rfl, nofun, hmiss, hidx⟩

/-- A reset leaves nothing recorded and nothing in the buffers, and loads the counters from NV (R290). -/
theorem resetBlock_sound : Sound (resetBlock s) :=
  sound_of_idle rfl ⟨rfl, rfl⟩ ⟨Nat.zero_le _, Nat.zero_le _, Memory.nil_wf, Memory.nil_wf⟩ ⟨nofun, rfl⟩
    ⟨rfl, fun _ => ⟨rfl, rfl⟩, Nat.zero_le _, Nat.zero_le _⟩

theorem step_sound (hs : Sound s) (h : step s = .next t) : Sound t := by
  cases step_effect h with
  | command i u hu h =>
    refine exec_sound ?_ h
    rw [hu]; exact hs
  | aside h => rw [h]; exact hs
  | input hl h hn hw =>
    have hsound := hs
    obtain ⟨hsaved, ⟨hilen, holen, hib, hob⟩, hflag, -⟩ := hs
    refine sound_of_sequencer_eq hsound hl (by rw [h]; rfl) (by rw [h]; exact hsaved) ?_ (by rw [h]; exact hflag)
    exact ⟨hn hilen, by rw [h]; exact holen, hw hib, by rw [h]; exact hob⟩
  | reset rest h => rw [h]; exact resetBlock_sound

end

/-- Settles O59: a step runs a command, leaves what the invariants speak of, sets the input in `IDLE`, or resets. -/
theorem everyStepKeepsSound : Obligations.EveryStepKeepsSound := fun _ _ hs h => step_sound hs h

/-- Settles O58: after reset the block is in `IDLE` with nothing recorded, and NV holds its counters. -/
theorem resetIsSound : Obligations.ResetIsSound :=
  sound_of_idle rfl ⟨rfl, rfl⟩ ⟨Nat.zero_le _, Nat.zero_le _, reset_buffers_wf⟩ ⟨nofun, rfl⟩
    ⟨rfl, fun _ => ⟨rfl, rfl⟩, Nat.zero_le _, Nat.zero_le _⟩

end Sys2Proof.Proofs

/-! ### The sequencer's transition relation (R324) -/

namespace Sys2Proof.Proofs

open Sys2Proof Sys2Proof.Machine Sys2Proof.Spec Sys2Proof.Safety

section

variable {i : Instr} {ev : LinkEvent} {s t : State}

/-- On the eighth header byte the table reads the length that the header then declares (R160). -/
theorem byteTarget_lastHeaderByte {u : State} (b : Byte) (hl : s.lstate = .rxHeader) (hi : s.byteIdx = 7)
    (hu : u = takeHeader (storeHeaderByte b s)) :
    byteTarget b s = if 1 ≤ u.rlen.toNat ∧ u.rlen.toNat ≤ 4096 then .rxPayload else .idle := by
  subst hu
  simp only [byteTarget, hl, hi, if_true]
  simp [takeHeader, storeHeaderByte, hi]

/-- An acknowledgement is the byte 0x21 (R132). -/
theorem isAck_byte (b : Byte) : isAck (.byte b) = true ↔ b = 0x21 := by simp [isAck, Config.ackByte]

/-- Where the table sends the sequencer on an event while it transmits: it asks only whether the event acknowledges. -/
theorem nextLState_txWaitSyncAck (ev : LinkEvent) (hl : s.lstate = .txWaitSyncAck) :
    nextLState (eventInstr ev) s =
      if isAck ev = true then .txWaitHdrAck else if s.txTries = 3 then .idle else .txWaitSyncAck := by
  cases ev with
  | byte b => simp only [eventInstr, nextLState, byteTarget, hl, isAck_byte]
  | timeout => simp [eventInstr, nextLState, timeoutTarget, hl, isAck]

theorem nextLState_txWaitHdrAck (ev : LinkEvent) (hl : s.lstate = .txWaitHdrAck) :
    nextLState (eventInstr ev) s = if isAck ev = true then .txWaitPayAck else .idle := by
  cases ev with
  | byte b => simp only [eventInstr, nextLState, byteTarget, hl, isAck_byte]
  | timeout => simp [eventInstr, nextLState, timeoutTarget, hl, isAck]

theorem nextLState_txWaitPayAck (ev : LinkEvent) (hl : s.lstate = .txWaitPayAck) :
    nextLState (eventInstr ev) s = .idle := by
  cases ev <;> simp [eventInstr, nextLState, byteTarget, timeoutTarget, hl]

theorem nextLState_event_idle (ev : LinkEvent) (hl : s.lstate = .idle) :
    nextLState (eventInstr ev) s = .idle := by
  cases ev <;> simp [eventInstr, nextLState, byteTarget, timeoutTarget, hl]

theorem nextLState_timeout_receiving (hl : s.lstate ≠ .txWaitSyncAck) : nextLState .linkTimeout s = .idle := by
  cases h : s.lstate <;> simp_all [nextLState, timeoutTarget]

/-- Each row of the transition table sends the sequencer where R324 says. -/
theorem LinkStep.lstate (h : LinkStep ev s t) : t.lstate = nextLState (eventInstr ev) s := by
  cases h with
  | refused hl => rw [nextLState_event_idle _ hl]; exact hl
  | huntOther hl hb | huntSync hl hb hc | huntRun hl hb hc =>
    simp_all [eventInstr, nextLState, byteTarget]
  | startFound hl hb | startMiss hl hb hc | startLimit hl hb hc =>
    simp_all [eventInstr, nextLState, byteTarget, Config.startByte]
  | headerByte hl hi =>
    have hi : ¬ s.byteIdx = 7 := fun h => by simp [h] at hi
    simp only [eventInstr, nextLState, byteTarget, hl, if_neg hi]
    exact hl
  | headerOversize hl hi hu hn =>
    refine .trans ?_ (byteTarget_lastHeaderByte _ hl hi hu).symm
    rw [if_neg (by omega)]; rfl
  | headerEmpty hl hi hu hn hf =>
    refine .trans ?_ (byteTarget_lastHeaderByte _ hl hi hu).symm
    rw [if_neg (by simp [hn]), rxFinish_lstate hf]
  | headerDone hl hi hu hn hz =>
    refine .trans ?_ (byteTarget_lastHeaderByte _ hl hi hu).symm
    rw [if_pos ⟨BitVec.toNat_pos_of_ne_zero hz, hn⟩]; rfl
  | payloadByte hl hi hn => simp [eventInstr, nextLState, byteTarget, storePayloadByte, hl, hn]
  | payloadLast hl hi hn hf => simp [eventInstr, nextLState, byteTarget, hl, hn, rxFinish_lstate hf]
  | huntTimeout hl | startTimeout hl | headerTimeout hl | payloadTimeout hl =>
    exact (nextLState_timeout_receiving (by simp [hl])).symm
  | syncAcked hl ha => rw [nextLState_txWaitSyncAck _ hl, if_pos ha]; rfl
  | syncRetry hl ha hc =>
    rw [nextLState_txWaitSyncAck _ hl, ha, if_neg Bool.false_ne_true, if_neg hc]
    exact hl
  | syncFailed hl ha hc => rw [nextLState_txWaitSyncAck _ hl, ha, if_neg Bool.false_ne_true, if_pos hc]; rfl
  | headerAcked hl ha | headerFailed hl ha => simp [nextLState_txWaitHdrAck _ hl, ha]
  | payloadAcked hl ha | payloadFailed hl ha => rw [nextLState_txWaitPayAck _ hl]; rfl

theorem IdleEffect.lstate (hl : s.lstate = .idle) (h : IdleEffect i s t) : t.lstate = nextLState i s := by
  cases h with
  | failed e hn => rw [hn]; exact hl
  | txStart hn => simp [nextLState, hl, hn]
  | rxStart => simp [nextLState, hl]
  | _ => rfl

/-- A command that is refused with `ERR_BUSY` is none that moves an active sequencer. -/
theorem nextLState_of_busy (ha : anyState i = false) (hl : s.lstate ≠ .idle) : nextLState i s = s.lstate := by
  cases i with
  | nop | linkByte | linkTimeout | linkAbort => cases ha
  | rxStart | txStart => simp [nextLState, hl]
  | _ => rfl

/-- Where every command leaves the sequencer. -/
theorem exec_lstate (h : exec i s = .next t) : t.lstate = nextLState i s := by
  cases exec_next h with
  | busy ha hl => exact (nextLState_of_busy ha hl).symm
  | idle hl he => exact he.lstate hl
  | nop => rfl
  | link hs => exact hs.lstate
  | abortIdle hl => exact hl
  | abort hl => rfl

/-- The table does not read the moves to come. -/
theorem nextLState_moves (rest : List Move) : nextLState i { s with moves := rest } = nextLState i s := rfl

/-- A host write that is none of `OP` leaves the sequencer. -/
theorem hostWrite_lstate {a : Nat} {v : Word} (ha : a / 4 ≠ 1) (h : hostWrite a v s = .next t) :
    t.lstate = s.lstate := by
  obtain ⟨-, -, rfl⟩ | ⟨-, h⟩ | rfl := hostWrite_next h
  · rfl
  · obtain ⟨-, rfl⟩ | ⟨hop, -⟩ | ⟨-, -, -, rfl⟩ | rfl := writeRegister_next h
    · rfl
    · omega
    · rfl
    · rfl
  · rfl

/-- A load, a read, an arrival and a write that is none of `OP` leave the sequencer. -/
theorem runMove_lstate {m : Move} (h : runMove m s = .next t)
    (hm : (∃ bs, m = .load bs) ∨ (∃ a, m = .read a) ∨ (∃ b, m = .arrive b) ∨ ∃ a v, m = .write a v ∧ a / 4 ≠ 1) :
    t.lstate = s.lstate := by
  obtain ⟨bs, rfl⟩ | ⟨a, rfl⟩ | ⟨b, rfl⟩ | ⟨a, v, rfl, ha⟩ := hm
  · obtain ⟨-, -, rfl⟩ := hostLoad_next h; rfl
  · cases h; rfl
  · cases h; rfl
  · exact hostWrite_lstate ha h

/-- A write of `OP` issues the command it names. -/
theorem hostWrite_op (v : Word) : hostWrite 0x04 v s = issueDecoded (decodePort v s.arg) s := by
  rw [hostWrite_aligned v s (by decide) rfl]; rfl

end

/-- Settles O49: command by command from what each can do, and move by move for the step. -/
theorem sequencerTransitionRelation : Obligations.SequencerTransitionRelation := by
  refine ⟨fun i s t h => exec_lstate h, fun s t w rest hm h => ?_, fun s t v rest hm h => ?_,
    fun s t m rest hm h hmove => ?_, fun s rest hm => ⟨_, step_of_move hm, rfl⟩⟩
  · rw [step_of_move hm] at h
    obtain ⟨i, hd, h⟩ | ⟨e, hd, rfl⟩ := issue_next h
    · rw [hd]; exact (exec_lstate h).trans (nextLState_moves rest)
    · rw [hd]; rfl
  · rw [step_of_move hm] at h
    obtain ⟨i, hd, h⟩ | ⟨e, hd, rfl⟩ := issueDecoded_next ((hostWrite_op v).symm.trans h)
    · rw [hd]; exact (exec_lstate h).trans (nextLState_moves rest)
    · rw [hd]; rfl
  · rw [step_of_move hm] at h
    exact runMove_lstate (s := { s with moves := rest }) h hmove

end Sys2Proof.Proofs

/-! ### What no command touches: the input, `ARG`, the channel, and OBUF outside what it stores (R22, R38, R64, R67) -/

namespace Sys2Proof.Proofs

open Sys2Proof Sys2Proof.Machine Sys2Proof.Spec Sys2Proof.Safety

section

variable {i : Instr} {ev : LinkEvent} {s t : State}

/-- What belongs to the host, to the channel and to the block's parameters. -/
def surroundings (s : State) : Memory × Half × Word × List Byte × Config.Params × Nat :=
  (s.ibuf, s.ilen, s.arg, s.rxin, s.params, s.epoch)

theorem IdleEffect.surroundings (h : IdleEffect i s t) : surroundings t = surroundings s := by
  cases h <;> rfl

/-- No command touches its surroundings. -/
theorem exec_surroundings (h : exec i s = .next t) : surroundings t = surroundings s := by
  cases exec_next h with
  | idle hl he => exact he.surroundings
  | link hs => rw [hs.frame]; rfl
  | _ => rfl

/-- A byte reads as before where the buffer and the number of resets are as before. -/
theorem byteAt_congr {sp : Config.Space} {a : Nat} (hcells : (t.cells sp).read a = (s.cells sp).read a)
    (hepoch : t.epoch = s.epoch) : t.byteAt sp a = s.byteAt sp a := by
  rw [State.byteAt, State.byteAt, hcells, hepoch]

/-! #### TXOUT -/

theorem rxFinish_txout (h : rxFinish s = .next t) : s.txout <+: t.txout := by
  obtain ⟨-, ⟨-, rfl⟩ | ⟨-, rfl⟩⟩ := rxFinish_next h
  · exact List.prefix_rfl
  · exact List.prefix_append ..

theorem LinkStep.txout (h : LinkStep ev s t) : s.txout <+: t.txout := by
  cases h with
  | huntRun | syncAcked | syncRetry | headerAcked => exact List.prefix_append ..
  | headerOversize _ _ hu => subst hu; exact List.prefix_rfl
  | headerEmpty _ _ hu _ hf => subst hu; exact (List.prefix_append ..).trans (rxFinish_txout hf)
  | headerDone _ _ hu => subst hu; exact List.prefix_append ..
  | @payloadLast b _ _ _ _ _ hf => exact rxFinish_txout (s := storePayloadByte b s) hf
  | _ => exact List.prefix_rfl

theorem IdleEffect.txout (h : IdleEffect i s t) : s.txout <+: t.txout := by
  cases h with
  | txStart => exact List.prefix_append ..
  | _ => exact List.prefix_rfl

/-- No command takes back a byte it emitted. -/
theorem exec_txout (h : exec i s = .next t) : s.txout <+: t.txout := by
  cases exec_next h with
  | idle hl he => exact he.txout
  | link hs => exact hs.txout
  | _ => exact List.prefix_rfl

/-! #### OBUF -/

/-- Outside the `n` bytes from `lo` the buffer reads as before. -/
def KeptOutside (lo n : Nat) (m m' : Memory) : Prop :=
  ∀ a, ¬ (lo ≤ a ∧ a < lo + n) → m'.read a = m.read a

theorem KeptOutside.refl {lo n : Nat} {m : Memory} : KeptOutside lo n m m := fun _ _ => rfl

/-- A further store within the range. -/
theorem KeptOutside.store {lo n i : Nat} {m m' : Memory} {bs : List Byte} (h : KeptOutside lo n m m')
    (hlo : lo ≤ i) (hn : i + bs.length ≤ lo + n) : KeptOutside lo n m (m'.store i bs) := by
  intro a ha
  rw [Memory.read_store, if_neg (by omega), h a ha]

/-- A link event stores at most the one byte that it brought (R162). -/
theorem LinkStep.keptOutside (h : LinkStep ev s t) :
    KeptOutside (storedAt (eventInstr ev) s).1 (storedAt (eventInstr ev) s).2 s.obuf t.obuf := by
  obtain hkept | ⟨b, rfl, hl, -, hstored⟩ := h.obuf
  · rw [hkept]; exact .refl
  · have hat : storedAt (.linkByte b) s = (s.byteIdx.toNat, 1) := if_pos hl
    rw [hstored, eventInstr, hat]
    exact KeptOutside.refl.store (Nat.le_refl _) (Nat.le_refl _)

theorem IdleEffect.keptOutside (h : IdleEffect i s t) :
    KeptOutside (storedAt i s).1 (storedAt i s).2 s.obuf t.obuf := by
  have stored {n : Nat} {bs : List Byte} (hn : bs.length ≤ n) : KeptOutside 0 n s.obuf (s.obuf.store 0 bs) :=
    KeptOutside.refl.store (Nat.le_refl _) (by omega)
  cases h with
  | encHdr => exact stored (Nat.le_refl _)
  | frmEnc => exact (stored (by simp [storedAt])).store (Nat.zero_le _) (by simp [storedAt])
  | frmDec hf => exact stored (by simp [storedAt, hf, inputHeader])
  | sha256 => exact stored (by simp [storedAt])
  | pktCreate => exact stored (by simp [storedAt])
  | parsed => exact stored (by simp [storedAt, declaredLen])
  | _ => exact .refl

/-- Every command leaves OBUF outside the bytes it stores to. -/
theorem exec_keptOutside (h : exec i s = .next t) :
    KeptOutside (storedAt i s).1 (storedAt i s).2 s.obuf t.obuf := by
  cases exec_next h with
  | idle hl he => exact he.keptOutside
  | link hs => exact hs.keptOutside
  | _ => exact .refl

end

/-- Settles O50: the surroundings of every command are as before, and TXOUT only grows. -/
theorem commandsNeverWriteTheirInput : Obligations.CommandsNeverWriteTheirInput := by
  intro i s t h
  have hsur := exec_surroundings h
  simp only [surroundings, Prod.mk.injEq] at hsur
  obtain ⟨hib, hilen, harg, hrxin, hparams, hepoch⟩ := hsur
  obtain ⟨bs, hbs⟩ := exec_txout h
  exact ⟨fun a => byteAt_congr (congrArg (Memory.read · a) hib) hepoch, hib, hilen, harg, hrxin, hparams, bs, hbs.symm⟩

/-- Settles O51: what each command stores lies within the range the table gives it. -/
theorem obufChangesOnlyWhereStored : Obligations.ObufChangesOnlyWhereStored := by
  intro i s t h a ha
  have hsur := exec_surroundings h
  simp only [surroundings, Prod.mk.injEq] at hsur
  obtain ⟨-, -, -, -, -, hepoch⟩ := hsur
  exact byteAt_congr (exec_keptOutside h a ha) hepoch

end Sys2Proof.Proofs

/-! ### The registers as the host sees them, `WR_CFG` and reset (R29 to R35, R66, R251, R290) -/

namespace Sys2Proof.Proofs

open Sys2Proof Sys2Proof.Machine Sys2Proof.Spec Sys2Proof.Safety

section

variable {s t : State}

/-! #### Command words -/

/-- A command word is its opcode above its argument (R70). -/
theorem decode_append (op : Byte) (arg : Word) : decode (op ++ arg) = decodeFields op arg := by
  have hop : opcodeOf (op ++ arg) = op := by
    rw [opcodeOf, BitVec.extractLsb'_append_eq_of_le (by decide)]; simp
  have harg : argOf (op ++ arg) = arg := by
    rw [argOf, BitVec.extractLsb'_append_eq_of_add_le (by decide)]; simp
  rw [decode, hop, harg]

/-- The three bits of a format C argument, reserved bits 0 (R71). -/
theorem decode_wrCfg (c : BitVec 3) : decode (0x01#8 ++ (0#29 ++ c)) = .ok (.wrCfg c) := by
  have hres : (0#29 ++ c).extractLsb' 3 29 = 0 := by
    rw [BitVec.extractLsb'_append_eq_of_le (by decide)]; simp
  have hcfg : (0#29 ++ c).extractLsb' 0 3 = c := by
    rw [BitVec.extractLsb'_append_eq_of_add_le (by decide)]; simp
  rw [decode_append]
  show formatC 0x01 (0#29 ++ c) .wrCfg = _
  rw [formatC, if_pos hres, hcfg]

theorem issue_wrCfg_reserved {arg : Word} (h : arg.extractLsb' 3 29 ≠ 0) (s : State) :
    issue (0x01#8 ++ arg) s = .next { s with err := .illegal } := by
  rw [issue, decode_append]
  show issueDecoded (formatC 0x01 arg .wrCfg) s = _
  rw [formatC, if_neg h]; rfl

/-! #### The packed registers -/

/-- A field above the low part of an append is a field of the high part, as far down as the low part is wide. -/
theorem extractLsb'_append_high {n m k : Nat} (x : BitVec n) (y : BitVec m) (j : Nat) :
    (x ++ y).extractLsb' (j + m) k = x.extractLsb' j k := by
  rw [BitVec.extractLsb'_append_eq_of_le (Nat.le_add_left ..), Nat.add_sub_cancel]

/-- The low part of an append. -/
theorem extractLsb'_append_low {n m : Nat} (x : BitVec n) (y : BitVec m) : (x ++ y).extractLsb' 0 m = y := by
  rw [BitVec.extractLsb'_append_eq_of_add_le (by omega), BitVec.extractLsb'_eq_self]

/-- A bit above the low part of an append. -/
theorem getLsbD_append_high {n m : Nat} (x : BitVec n) (y : BitVec m) (j : Nat) :
    (x ++ y).getLsbD (j + m) = x.getLsbD j := by
  simp [BitVec.getLsbD_append]

/-- A flag that stands lowest. -/
theorem getLsbD_append_bit {n : Nat} (x : BitVec n) (b : Bool) : (x ++ bit b).getLsbD 0 = b := by
  rw [BitVec.getLsbD_append, if_pos Nat.zero_lt_one]
  cases b <;> rfl

/-- `STATUS` packs its fields at the bits of R29: below each stand `ERR` and the flags before it. -/
theorem statusWord_fields (s : State) :
    (statusWord s).extractLsb' 0 4 = s.err.code ∧ (statusWord s).getLsbD 4 = s.authOk ∧
    (statusWord s).getLsbD 5 = s.authWarn ∧ (statusWord s).getLsbD 6 = s.footerValid ∧
    (statusWord s).getLsbD 7 = s.bootAnomaly ∧ (statusWord s).getLsbD 8 = linkActive s ∧
    (statusWord s).extractLsb' 9 23 = 0 := by
  refine ⟨extractLsb'_append_low .., ?_, ?_, ?_, ?_, ?_, ?_⟩
  iterate 5
    · repeat refine (getLsbD_append_high ..).trans ?_
      exact getLsbD_append_bit ..
  · repeat refine (extractLsb'_append_high ..).trans ?_
    exact BitVec.extractLsb'_eq_self

/-- `LSTAT` packs its fields at the bits of R33 to R35: below each stand the fields before it. -/
theorem lstatWord_fields (s : State) :
    (lstatWord s).extractLsb' 0 3 = s.lstate.code ∧ (lstatWord s).extractLsb' 3 3 = s.lresult.code ∧
    (lstatWord s).extractLsb' 6 4 = s.lcause.code ∧ (lstatWord s).extractLsb' 10 2 = s.syncCnt ∧
    (lstatWord s).extractLsb' 12 4 = s.missCnt ∧ (lstatWord s).extractLsb' 16 2 = s.txTries ∧
    (lstatWord s).extractLsb' 18 13 = s.byteIdx ∧ (lstatWord s).getLsbD 31 = false := by
  refine ⟨extractLsb'_append_low .., ?_, ?_, ?_, ?_, ?_, ?_, ?_⟩
  iterate 6
    · repeat refine (extractLsb'_append_high ..).trans ?_
      exact extractLsb'_append_low ..
  · repeat refine (getLsbD_append_high ..).trans ?_
    rfl

/-- The code values are those of the tables of R260, R33, R34 and R263. -/
theorem fieldCodes : FieldCodes := by simp [FieldCodes, Err.code, LState.code, LResult.code, LCause.code]

/-! #### Host reads -/

/-- The bits of `CFG` (R30). -/
theorem cfgWord_fields (s : State) :
    (cfgWord s).getLsbD 0 = s.authEn ∧ (cfgWord s).getLsbD 1 = s.authEnforce ∧
    (cfgWord s).getLsbD 2 = s.adoptLower ∧ (cfgWord s).extractLsb' 3 29 = 0 := by
  have hbit {k : Nat} (hk : k < 32) : (cfgWord s).getLsbD k = s.cfg.getLsbD k := by
    simp [cfgWord, hk]
  refine ⟨hbit (by decide), hbit (by decide), hbit (by decide), BitVec.eq_of_getLsbD_eq fun k hk => ?_⟩
  rw [BitVec.getLsbD_extractLsb', hbit (by omega), BitVec.getLsbD_of_ge _ _ (by omega)]
  simp

/-- A narrower register is read zero-extended (R55). -/
theorem hostRead_narrow {n a : Nat} {v : BitVec n} (hn : n ≤ 32) (ha : a < 0x4C)
    (hv : registerWord s a = v.setWidth 32) : (hostRead s a).toNat = v.toNat := by
  rw [hostRead_register s ha, hv, BitVec.toNat_setWidth_of_le hn]

/-- Every readable register, both windows and the reserved addresses (R66). -/
theorem registerMapReads (s : State) : RegisterMapReads s := by
  refine ⟨cfgWord_fields s, ⟨?_, ?_, ?_, ?_, rfl, ?_, ?_, ?_, rfl, rfl, rfl, rfl, rfl, rfl⟩, fun i hi => ⟨?_, ?_⟩,
    fun a ha hib hob => hostRead_reserved s ha hib hob⟩
  iterate 7 exact hostRead_narrow (by decide) (by decide) rfl
  · rw [hostRead_ibuf s hi, BitVec.toNat_setWidth_of_le (by decide)]
  · rw [hostRead_obuf s hi, BitVec.toNat_setWidth_of_le (by decide)]

/-! #### Host writes -/

/-- A write outside `ARG`, `OP`, `ILEN` and the IBUF window is ignored, whether or not an address inside a register acts
on it (R66). -/
theorem hostWrite_ignored {a : Nat} (v : Word) (harg : a / 4 ≠ 0) (hop : a / 4 ≠ 1) (hilen : a / 4 ≠ 4)
    (hwin : ¬ (0x2000 ≤ a ∧ a < 0x3008)) (s : State) : hostWrite a v s = .next s := by
  have hreg : writeRegister (a - a % 4) v s = .next s := by
    rw [writeRegister, if_neg (by omega), if_neg (by omega), if_neg (by omega)]
  rw [hostWrite, if_neg (by rwa [ibufWindow_iff]), hreg, ite_self, ite_self]

/-- Host reads and the writes that are ignored take their move and do nothing else. -/
theorem hostAccessesChangeNothingElse (s : State) : HostAccessesChangeNothingElse s :=
  ⟨fun _ _ hm => step_of_move hm, fun _ v _ hm harg hop hilen hwin =>
    (step_of_move hm).trans (hostWrite_ignored v harg hop hilen hwin _)⟩

theorem argWriteSetsOnlyArg (s : State) : ArgWriteSetsOnlyArg s := fun v _ hm =>
  (step_of_move hm).trans (hostWrite_aligned v _ (by decide) rfl)

end

/-- Settles O55: the packed words field by field, the map address by address, and the host's accesses as steps. -/
theorem statusAndLstatFields : Obligations.StatusAndLstatFields := by
  intro s
  obtain ⟨herr, hok, hwarn, hfooter, hanomaly, hactive, hres⟩ := statusWord_fields s
  obtain ⟨hstate, hresult, hcause, hsync, hmiss, htries, hidx, htop⟩ := lstatWord_fields s
  have hactive : (statusWord s).getLsbD 8 = true ↔ s.lstate ≠ .idle := by rw [hactive, linkActive, bne_iff_ne]
  exact ⟨hostRead_register s (by decide), hostRead_register s (by decide), herr, hok, hwarn, hfooter, hanomaly,
    hactive, hres, hstate, hresult, hcause, hsync, hmiss, htries, hidx, htop, fieldCodes, registerMapReads s,
    hostAccessesChangeNothingElse s, argWriteSetsOnlyArg s⟩

/-- Settles O8: the encoding, the busy check, and the three bits with everything else as it was. -/
theorem wrCfgWritesTheThreeBits : Obligations.WrCfgWritesTheThreeBits :=
  ⟨decode_wrCfg, fun _ s h => issue_wrCfg_reserved h s, fun _ _ hl => whenIdle_of_active hl _,
    fun _ _ hl => ⟨_, whenIdle_of_idle hl _, rfl, rfl, rfl, rfl⟩⟩

/-- Settles O57: a reset step is `resetBlock`, read field by field. -/
theorem resetStepSetsTheTable : Obligations.ResetStepSetsTheTable := by
  intro s rest hm
  refine ⟨resetBlock { s with moves := rest }, step_of_move hm, ?_⟩
  simp [State.reset]

end Sys2Proof.Proofs

/-! ### What a `PKT_PARSE` that succeeds delivers (R31, R186, R211 to R215) -/

namespace Sys2Proof.Proofs

open Sys2Proof Sys2Proof.Machine Sys2Proof.Spec Sys2Proof.Safety

/-! #### The comparison of tags (R186) -/

/-- The folded differences are 0 exactly when the fold began at 0 and met no pair that differs. -/
theorem foldl_or_xor_eq_zero (l : List (Byte × Byte)) (acc : Byte) :
    l.foldl (fun (acc : Byte) (p : Byte × Byte) => acc ||| (p.1 ^^^ p.2)) acc = 0 ↔
      acc = 0 ∧ ∀ p ∈ l, p.1 = p.2 := by
  induction l generalizing acc with
  | nil => simp
  | cons p l ih =>
    have hor : acc ||| (p.1 ^^^ p.2) = 0 ↔ acc = 0 ∧ p.1 = p.2 :=
      BitVec.or_eq_zero_iff.trans (and_congr_right' BitVec.xor_eq_zero_iff)
    simp only [List.foldl_cons, ih, hor, List.forall_mem_cons, and_assoc]

/-- Strings of one length are equal exactly when no pair of them differs. -/
theorem forall_mem_zip_eq_iff {a b : List Byte} (h : a.length = b.length) :
    (∀ p ∈ a.zip b, p.1 = p.2) ↔ a = b := by
  induction a generalizing b with
  | nil => cases b <;> simp_all
  | cons x a ih => cases b <;> simp_all

/-- The comparison that visits every index is equality. -/
theorem ctEq_iff (a b : List Byte) : Config.ctEq a b = true ↔ a = b := by
  unfold Config.ctEq
  split
  next h => exact ⟨nofun, fun hab => absurd (congrArg List.length hab) h⟩
  next h => rw [beq_iff_eq, foldl_or_xor_eq_zero, forall_mem_zip_eq_iff (not_not.1 h)]; simp

section

variable {s : State}

/-- The tag received with the packet and the tag computed over what comes before it (R211). -/
def tagsEqual (s : State) : Bool :=
  Config.ctEq (slice (input s) (s.ilen.toNat - 32) s.ilen.toNat)
    (Config.hmacSha256 s.params.key (slice (input s) 0 (s.ilen.toNat - 32)))

theorem tagsEqual_iff : tagsEqual s = true ↔
    slice (input s) (s.ilen.toNat - 32) s.ilen.toNat =
      Config.hmacSha256 s.params.key (slice (input s) 0 (s.ilen.toNat - 32)) := ctEq_iff ..

/-- With authentication, a packet of its declared length is delivered when its tag is right or the policy only warns. -/
theorem execPktParse_auth (hl : s.lstate = .idle) (hen : s.authEn = true) (hn : s.ilen.toNat = 45 + declaredLen s)
    (hok : (!tagsEqual s && s.authEnforce) = false) :
    exec .pktParse s = .next (complete (pktDeliver (input s) (declaredLen s) (tagsEqual s) (clearParseFlags s))) := by
  have hhdr : ¬ s.ilen.toNat < 5 := by omega
  have hshort : ¬ s.ilen.toNat < 45 + declaredLen s := by omega
  have hlong : ¬ s.ilen.toNat > 45 + declaredLen s := by omega
  refine (whenIdle_of_idle hl _).trans (congrArg Host.Outcome.next ?_)
  exact (if_neg hhdr).trans <| (if_pos hen).trans <| (if_neg hshort).trans <| (if_neg hlong).trans <|
    if_neg (Bool.eq_false_iff.1 hok)

/-- Without authentication, a packet that holds its declared data is delivered, and no tag is looked at. -/
theorem execPktParse_plain (hl : s.lstate = .idle) (hen : s.authEn = false) (hn : 5 + declaredLen s ≤ s.ilen.toNat) :
    exec .pktParse s = .next (complete (pktDeliver (input s) (declaredLen s) false (clearParseFlags s))) := by
  have hhdr : ¬ s.ilen.toNat < 5 := by omega
  have hshort : ¬ s.ilen.toNat < 5 + declaredLen s := by omega
  refine (whenIdle_of_idle hl _).trans (congrArg Host.Outcome.next ?_)
  exact (if_neg hhdr).trans <| (if_neg (Bool.eq_false_iff.1 hen)).trans (if_neg hshort)

/-- The four bytes of a footer field as a number (R51, R84). -/
theorem toNat_footerField (p : List Byte) {i j : Nat} (h : j ≤ i + 4) :
    (BitVec.ofNat 32 (fromLe (slice p i j))).toNat = fromLe (slice p i j) := by
  have hlen : (slice p i j).length ≤ 4 := by simp; omega
  refine (BitVec.toNat_ofNat ..).trans (Nat.mod_eq_of_lt ((fromLe_lt _).trans_le ?_))
  exact (Nat.pow_le_pow_right (by decide) hlen).trans (by decide)

/-- Delivery stores the data at the start of OBUF (R211). -/
theorem obufStored_pktDeliver (p : List Byte) (l : Nat) (ok : Bool) :
    ObufStored s (complete (pktDeliver p l ok (clearParseFlags s))) 0 (slice p 5 (5 + l)) :=
  byteAt_writeObuf_obuf s 0 (slice p 5 (5 + l))

/-- What delivery leaves: the packet's fields, and the flags by `AUTH_EN` and the verdict (R31, R211). -/
theorem complete_pktDeliver_eq (p : List Byte) (l : Nat) (ok : Bool) :
    let t := complete (pktDeliver p l ok (clearParseFlags s))
    t = { s with rdst := p.getD 0 0, rsrc := p.getD 1 0, rflg := p.getD 2 0, rseq := (p.getD 3 0).setWidth 16,
                 rlen := BitVec.ofNat 16 l, obuf := t.obuf, olen := BitVec.ofNat 16 l,
                 authOk := s.authEn && ok, authWarn := s.authEn && !ok, footerValid := s.authEn && ok,
                 rboot := t.rboot, rmsg := t.rmsg, err := .ok } := rfl

end

/-- Settles O38: equal tags, different tags under the warn policy, no authentication. -/
theorem pktParseDelivers : Obligations.PktParseDelivers := by
  rintro s p n l hl rfl rfl rfl
  refine ⟨fun hen hn htag => ?_, fun hen hn htag hwarn => ?_, fun hen hn => ?_⟩
  · have hok : tagsEqual s = true := tagsEqual_iff.2 htag
    refine ⟨_, execPktParse_auth hl hen hn (by simp [hok]), ?_, ?_, ?_, obufStored_pktDeliver _ _ _⟩
    · refine (complete_pktDeliver_eq ..).trans ?_
      rw [hok, hen]; rfl
    · rw [hok]; exact toNat_footerField _ (by omega)
    · rw [hok]; exact toNat_footerField _ (by omega)
  · have hok : tagsEqual s = false := Bool.eq_false_iff.2 fun h => htag (tagsEqual_iff.1 h)
    refine ⟨_, execPktParse_auth hl hen hn (by simp [hwarn]), ?_, obufStored_pktDeliver _ _ _⟩
    refine (complete_pktDeliver_eq ..).trans ?_
    rw [hok, hen]; rfl
  · refine ⟨_, execPktParse_plain hl hen hn, ?_, obufStored_pktDeliver _ _ _⟩
    refine (complete_pktDeliver_eq ..).trans ?_
    rw [hen]; rfl

end Sys2Proof.Proofs

/-! ### Bytes of IBUF at or beyond `ILEN` (R22, R38)

Every command commutes with a change of IBUF that keeps the bytes below `ILEN`. As for the key, each proof follows the
branches of the command; a branch that reads IBUF carries the check that bounds what it reads. -/

namespace Sys2Proof.Proofs

open Sys2Proof Sys2Proof.Machine Sys2Proof.Spec Sys2Proof.Safety

/-- A function is applied to a choice by being applied in each branch, where the branch's condition may be used. -/
theorem ite_eq_apply_ite_of {α β : Type} {f : α → β} {c : Prop} [Decidable c] {a b : α} {a' b' : β}
    (ha : c → a' = f a) (hb : ¬ c → b' = f b) : (if c then a' else b') = f (if c then a else b) := by
  split
  next h => exact ha h
  next h => exact hb h

/-- The state with another content of IBUF. -/
def withIbuf (m : Memory) (s : State) : State := { s with ibuf := m }

/-- Another content of IBUF that agrees with the state's on the input. -/
def AgreesBelowIlen (m : Memory) (s : State) : Prop :=
  ∀ a < s.ilen.toNat, (withIbuf m s).byteAt .ibuf a = s.byteAt .ibuf a

section

variable {m : Memory} {s : State}

/-! #### What reads the input -/

@[simp] theorem withIbuf_ilen : (withIbuf m s).ilen = s.ilen := rfl
@[simp] theorem withIbuf_lstate : (withIbuf m s).lstate = s.lstate := rfl

theorem memRead_withIbuf (h : AgreesBelowIlen m s) {i n : Nat} (hn : i + n ≤ s.ilen.toNat) :
    (withIbuf m s).memRead .ibuf i n = s.memRead .ibuf i n :=
  memRead_congr fun a _ ha => h a (by omega)

theorem input_withIbuf (h : AgreesBelowIlen m s) : input (withIbuf m s) = input s :=
  memRead_withIbuf h (Nat.zero_add _).le

/-- A state that differs in neither IBUF nor `ILEN` has the same input. -/
theorem input_of_withIbuf (h : AgreesBelowIlen m s) {t : State} (ht : input t = input (withIbuf m s)) :
    input t = input s := ht.trans (input_withIbuf h)

/-! #### The checks -/

/-- The busy check does not read IBUF. -/
theorem whenIdle_withIbuf {r r' : Result} (h : r' = mapNext (withIbuf m) r) :
    whenIdle (withIbuf m s) r' = mapNext (withIbuf m) (whenIdle s r) := ite_eq_apply_ite h rfl

/-- The busy check before a command that always goes on. -/
theorem whenIdle_next_withIbuf {t t' : State} (h : t' = withIbuf m t) :
    whenIdle (withIbuf m s) (.next t') = mapNext (withIbuf m) (whenIdle s (.next t)) :=
  whenIdle_withIbuf (congrArg Host.Outcome.next h)

/-- The bound of a buffer access does not read IBUF. -/
theorem withinBuffer_withIbuf {n : Nat} {r r' : Result} (h : r' = mapNext (withIbuf m) r) :
    withinBuffer n r' = mapNext (withIbuf m) (withinBuffer n r) := ite_eq_apply_ite h rfl

theorem complete_withIbuf {t t' : State} (h : t' = withIbuf m t) : complete t' = withIbuf m (complete t) := by
  rw [h]; rfl

/-! #### The commands that read the input -/

theorem execCrc32_withIbuf (h : AgreesBelowIlen m s) :
    execCrc32 (withIbuf m s) = mapNext (withIbuf m) (execCrc32 s) := by
  rw [execCrc32, input_withIbuf h]
  exact whenIdle_withIbuf (withinBuffer_withIbuf rfl)

theorem execSha256_withIbuf (h : AgreesBelowIlen m s) :
    execSha256 (withIbuf m s) = mapNext (withIbuf m) (execSha256 s) := by
  rw [execSha256, input_withIbuf h]
  exact whenIdle_withIbuf (withinBuffer_withIbuf rfl)

theorem encHdr_withIbuf (h : AgreesBelowIlen m s) (q : Half) :
    encHdr q (withIbuf m s) = withIbuf m (encHdr q s) := by
  rw [encHdr, setEncoded, input_withIbuf h, input_of_withIbuf h (t := (withIbuf m s).writeObuf _ _) rfl]
  exact ite_eq_apply_ite rfl rfl

theorem frmEnc_withIbuf (h : AgreesBelowIlen m s) (q : Half) :
    frmEnc q (withIbuf m s) = withIbuf m (frmEnc q s) := by
  rw [frmEnc, setEncoded, input_withIbuf h,
    input_of_withIbuf h (t := ((withIbuf m s).writeObuf _ _).writeObuf _ _) rfl]
  exact ite_eq_apply_ite rfl rfl

theorem txStart_withIbuf (h : AgreesBelowIlen m s) (q : Half) :
    txStart q (withIbuf m s) = withIbuf m (txStart q s) := by
  rw [txStart, setEncoded, input_withIbuf h, input_of_withIbuf h (t := clearLink (withIbuf m s)) rfl]
  exact ite_eq_apply_ite rfl rfl

/-- The header is read only where the input holds it (R113). -/
theorem decHdr_withIbuf (h : AgreesBelowIlen m s) : decHdr (withIbuf m s) = withIbuf m (decHdr s) := by
  refine ite_eq_apply_ite_of (fun _ => rfl) fun hn => ite_eq_apply_ite rfl ?_
  rw [memRead_withIbuf h (i := 0) (n := 8) (not_lt.1 hn)]; rfl

/-- The header is read only where the input holds it, the payload only where the header's length lies within it
(R117). -/
theorem frmDec_withIbuf (h : AgreesBelowIlen m s) : frmDec (withIbuf m s) = withIbuf m (frmDec s) := by
  simp only [Machine.frmDec]
  refine ite_eq_apply_ite_of (fun _ => rfl) fun hn => ?_
  have hn : 8 ≤ s.ilen.toNat := not_lt.1 hn
  rw [memRead_withIbuf h (i := 0) (n := 8) hn]
  refine ite_eq_apply_ite rfl <| ite_eq_apply_ite_of (fun _ => rfl) fun hshort => ite_eq_apply_ite rfl ?_
  have hshort : ¬ s.ilen.toNat - 8 < (fields (s.memRead .ibuf 0 8)).length.toNat := hshort
  rw [memRead_withIbuf h (by omega)]
  exact ite_eq_apply_ite rfl rfl

theorem pktCreate_withIbuf (h : AgreesBelowIlen m s) (d r f q : Byte) :
    pktCreate d r f q (withIbuf m s) = withIbuf m (pktCreate d r f q s) := by
  rw [pktCreate, input_withIbuf h]
  exact ite_eq_apply_ite rfl (ite_eq_apply_ite rfl rfl)

/-- The packet is the input, and nothing else of IBUF (R211). -/
theorem pktParse_withIbuf (h : AgreesBelowIlen m s) : pktParse (withIbuf m s) = withIbuf m (pktParse s) := by
  rw [pktParse, input_withIbuf h]
  exact ite_eq_apply_ite rfl <| ite_eq_apply_ite
    (ite_eq_apply_ite rfl <| ite_eq_apply_ite rfl <| ite_eq_apply_ite rfl rfl) (ite_eq_apply_ite rfl rfl)

/-- The payload is emitted as the input (R133). -/
theorem txHdrAck_withIbuf (h : AgreesBelowIlen m s) (ev : LinkEvent) :
    txHdrAck ev (withIbuf m s) = mapNext (withIbuf m) (txHdrAck ev s) := by
  rw [txHdrAck, input_withIbuf h]
  exact ite_eq_apply_ite (withinBuffer_withIbuf rfl) rfl

/-! #### The commands and the transitions that do not read IBUF -/

theorem advMsgid_withIbuf : advMsgid (withIbuf m s) = withIbuf m (advMsgid s) :=
  ite_eq_apply_ite rfl rfl

theorem syncBoot_withIbuf (v : Word) : syncBoot v (withIbuf m s) = withIbuf m (syncBoot v s) :=
  ite_eq_apply_ite rfl (ite_eq_apply_ite (complete_withIbuf (ite_eq_apply_ite rfl rfl)) rfl)

theorem txSyncAck_withIbuf (ev : LinkEvent) : txSyncAck ev (withIbuf m s) = mapNext (withIbuf m) (txSyncAck ev s) :=
  ite_eq_apply_ite rfl (ite_eq_apply_ite rfl rfl)

theorem txPayAck_withIbuf (ev : LinkEvent) : txPayAck ev (withIbuf m s) = mapNext (withIbuf m) (txPayAck ev s) :=
  ite_eq_apply_ite rfl rfl

/-- The check of a payload reads OBUF. -/
theorem rxFinish_withIbuf {t : State} (h : t = withIbuf m s) : rxFinish t = mapNext (withIbuf m) (rxFinish s) := by
  subst h
  exact withinBuffer_withIbuf (ite_eq_apply_ite rfl rfl)

theorem rxHunt_withIbuf : ∀ ev, rxHunt ev (withIbuf m s) = mapNext (withIbuf m) (rxHunt ev s)
  | .byte _ => ite_eq_apply_ite (ite_eq_apply_ite rfl rfl) rfl
  | .timeout => rfl

theorem rxWaitStart_withIbuf : ∀ ev, rxWaitStart ev (withIbuf m s) = mapNext (withIbuf m) (rxWaitStart ev s)
  | .byte _ => ite_eq_apply_ite rfl (ite_eq_apply_ite rfl rfl)
  | .timeout => rfl

theorem rxHeaderDone_withIbuf {t : State} (h : t = withIbuf m s) :
    rxHeaderDone t = mapNext (withIbuf m) (rxHeaderDone s) := by
  subst h
  exact ite_eq_apply_ite rfl (ite_eq_apply_ite (rxFinish_withIbuf rfl) rfl)

theorem rxHeader_withIbuf : ∀ ev, rxHeader ev (withIbuf m s) = mapNext (withIbuf m) (rxHeader ev s)
  | .byte _ => ite_eq_apply_ite (ite_eq_apply_ite (rxHeaderDone_withIbuf rfl) rfl) rfl
  | .timeout => rfl

theorem rxPayload_withIbuf : ∀ ev, rxPayload ev (withIbuf m s) = mapNext (withIbuf m) (rxPayload ev s)
  | .byte _ => withinBuffer_withIbuf (ite_eq_apply_ite (rxFinish_withIbuf rfl) rfl)
  | .timeout => rfl

/-! #### Every command -/

/-- A link event in every `LSTATE`: only the payload's emission reads IBUF. -/
theorem linkEvent_withIbuf (h : AgreesBelowIlen m s) (ev : LinkEvent) :
    linkEvent ev (withIbuf m s) = mapNext (withIbuf m) (linkEvent ev s) := by
  unfold linkEvent
  rw [withIbuf_lstate]
  cases s.lstate with
  | idle => rfl
  | rxHunt => exact rxHunt_withIbuf ev
  | rxWaitStart => exact rxWaitStart_withIbuf ev
  | rxHeader => exact rxHeader_withIbuf ev
  | rxPayload => exact rxPayload_withIbuf ev
  | txWaitSyncAck => exact txSyncAck_withIbuf ev
  | txWaitHdrAck => exact txHdrAck_withIbuf h ev
  | txWaitPayAck => exact txPayAck_withIbuf ev

/-- Every command does the same on another content of IBUF that agrees on the input. -/
theorem exec_withIbuf (i : Instr) (h : AgreesBelowIlen m s) :
    exec i (withIbuf m s) = mapNext (withIbuf m) (exec i s) := by
  cases i with
  | nop => rfl
  | wrCfg | clrSticky | rxStart | nvLoad => exact whenIdle_next_withIbuf rfl
  | crc32 => exact execCrc32_withIbuf h
  | sha256 => exact execSha256_withIbuf h
  | encHdr q => exact whenIdle_next_withIbuf (encHdr_withIbuf h q)
  | decHdr => exact whenIdle_next_withIbuf (decHdr_withIbuf h)
  | frmEnc q => exact whenIdle_next_withIbuf (frmEnc_withIbuf h q)
  | frmDec => exact whenIdle_next_withIbuf (frmDec_withIbuf h)
  | txStart q => exact whenIdle_next_withIbuf (txStart_withIbuf h q)
  | linkByte b => exact linkEvent_withIbuf h (.byte b)
  | linkTimeout => exact linkEvent_withIbuf h .timeout
  | linkAbort => exact congrArg Host.Outcome.next (complete_withIbuf (ite_eq_apply_ite rfl rfl))
  | pktCreate d r f q => exact whenIdle_next_withIbuf (pktCreate_withIbuf h d r f q)
  | pktParse => exact whenIdle_next_withIbuf (pktParse_withIbuf (s := clearParseFlags s) h)
  | advMsgid => exact whenIdle_next_withIbuf advMsgid_withIbuf
  | syncBoot v => exact whenIdle_next_withIbuf (syncBoot_withIbuf v)

end

/-- Settles O53: every command commutes with a change of IBUF at or beyond `ILEN`. -/
theorem bytesBeyondIlenDoNotMatter : Obligations.BytesBeyondIlenDoNotMatter := fun i _ _ h => exec_withIbuf i h

end Sys2Proof.Proofs

/-! ### Moves that run a command, and the host's load (R57, R59, R60, R66, R67, R320, R321) -/

namespace Sys2Proof.Proofs

open Sys2Proof Sys2Proof.Machine Sys2Proof.Spec

section

variable {s : State} {i : Instr}

/-! #### Issuing and the byte channel -/

/-- A word that decodes is its command (R321). -/
theorem issue_of_decode {w : CmdWord} (h : decode w = .ok i) : issue w s = exec i s := by
  rw [issue, h]; rfl

/-- A write of `OP` with no bit above the opcode issues the word it completes with `ARG` (R66, R74). -/
theorem hostWrite_op_eq_issue {v : Word} (hv : v.extractLsb' 8 24 = 0) :
    hostWrite 0x04 v s = issue (v.extractLsb' 0 8 ++ s.arg) s := by
  rw [hostWrite_op, decodePort, if_pos hv, issue, decode_append]

/-- While a link activity is in progress the channel presents its oldest byte (R67). -/
theorem deliver_of_active {b : Byte} {bs : List Byte} (hl : s.lstate ≠ .idle) (hr : s.rxin = b :: bs) :
    deliver s = exec (.linkByte b) { s with rxin := bs } := by
  simp [deliver, hr, hl]

/-- In `IDLE`, and with no byte received, the channel presents nothing (R67). -/
theorem deliver_of_idle_or_empty (h : s.lstate = .idle ∨ s.rxin = []) : deliver s = .next s := by
  cases hr : s.rxin with
  | nil => simp [deliver, hr]
  | cons b bs => simp [deliver, hr, h.resolve_right (by simp [hr])]

theorem channelTimeout_of_active (hl : s.lstate ≠ .idle) : channelTimeout s = exec .linkTimeout s := if_neg hl

theorem channelTimeout_of_idle (hl : s.lstate = .idle) : channelTimeout s = .next s := if_pos hl

/-- A word placed by `withFetchWord` is issued by the next step, on the state it was placed in. -/
theorem step_withFetchWord (w : CmdWord) : step (s.withFetchWord 40 w.toNat) = issue w s := by
  have hm : (s.withFetchWord 40 w.toNat).moves = .cmd w :: s.moves := by
    rw [State.withFetchWord, BitVec.ofNat_toNat, BitVec.setWidth_eq]; rfl
  exact step_of_move hm

end

/-- Settles O6: each move that stands first is made on the state without it; a word, a write of `OP` and the channel's
two events then run their command. -/
theorem stepRunsTheDecodedCommand : Obligations.StepRunsTheDecodedCommand := by
  refine ⟨fun s w i rest hm hd => ?_, fun s v i rest hm hv hd => ?_, fun s b bs rest hm hl hr => ?_,
    fun s rest hm hl => ?_, fun s rest h => ?_, fun s b rest hm => step_of_move hm, fun s => step_of_no_move,
    fun s w i hd => (step_withFetchWord w).trans (issue_of_decode hd)⟩
  · exact (step_of_move hm).trans (issue_of_decode hd)
  · calc step s = hostWrite 0x04 v { s with moves := rest } := step_of_move hm
      _ = issue (v.extractLsb' 0 8 ++ s.arg) { s with moves := rest } := hostWrite_op_eq_issue hv
      _ = exec i { s with moves := rest } := issue_of_decode hd
  · exact (step_of_move hm).trans (deliver_of_active hl hr)
  · exact (step_of_move hm).trans (channelTimeout_of_active hl)
  · obtain ⟨hm, hnone⟩ | ⟨hm, hl⟩ := h
    · exact (step_of_move hm).trans (deliver_of_idle_or_empty hnone)
    · exact (step_of_move hm).trans (channelTimeout_of_idle hl)

/-! #### A store continued by a store

The host's load is one store and its byte writes are many (R57): the buffers are equal cell by cell, because each
further byte is stored where the bytes before it end. -/

theorem cellsAt_append (i : Nat) (as bs : List Byte) :
    cellsAt i (as ++ bs) = cellsAt i as ++ cellsAt (i + as.length) bs := by
  induction as generalizing i with
  | nil => rfl
  | cons a as ih =>
    rw [List.cons_append, cellsAt, ih, cellsAt, List.length_cons, Nat.add_right_comm i 1, Nat.add_assoc]; rfl

/-- Below the end of a stored string stand the cells below its start and its own. -/
theorem filter_lt_store (m : Memory) (i : Nat) (bs : List Byte) :
    (m.store i bs).filter (fun c => c.1 < i + bs.length) = m.filter (fun c => c.1 < i) ++ cellsAt i bs := by
  have hbelow : (m.filter fun c => c.1 < i).filter (fun c => c.1 < i + bs.length) = m.filter fun c => c.1 < i := by
    simp only [List.filter_eq_self, List.mem_filter, decide_eq_true_eq]
    omega
  have hown : (cellsAt i bs).filter (fun c => c.1 < i + bs.length) = cellsAt i bs :=
    List.filter_eq_self.2 fun c hc => decide_eq_true (mem_cellsAt hc).2
  have habove : (m.filter fun c => i + bs.length ≤ c.1).filter (fun c => c.1 < i + bs.length) = [] := by
    simp only [List.filter_eq_nil_iff, List.mem_filter, decide_eq_true_eq]
    omega
  rw [Memory.store, List.filter_append, List.filter_append, hbelow, hown, habove, List.append_nil]

/-- From the end of a stored string on stand the cells from before. -/
theorem filter_ge_store (m : Memory) {i k : Nat} {bs : List Byte} (hk : i + bs.length ≤ k) :
    (m.store i bs).filter (fun c => k ≤ c.1) = m.filter (fun c => k ≤ c.1) := by
  have hbelow : (m.filter fun c => c.1 < i).filter (fun c => k ≤ c.1) = [] := by
    simp only [List.filter_eq_nil_iff, List.mem_filter, decide_eq_true_eq]
    omega
  have hown : (cellsAt i bs).filter (fun c => k ≤ c.1) = [] := by
    simp only [List.filter_eq_nil_iff, decide_eq_true_eq]
    intro c hc
    have := mem_cellsAt hc
    omega
  have habove : (m.filter fun c => i + bs.length ≤ c.1).filter (fun c => k ≤ c.1) = m.filter fun c => k ≤ c.1 := by
    rw [List.filter_filter]
    refine List.filter_congr fun c _ => ?_
    simp only [Bool.and_eq_left_iff_imp, decide_eq_true_eq]
    omega
  rw [Memory.store, List.filter_append, List.filter_append, hbelow, hown, habove]; rfl

/-- A store that begins where the one before it ended makes the two one store. -/
theorem store_append (m : Memory) (i : Nat) (as bs : List Byte) :
    (m.store i as).store (i + as.length) bs = m.store i (as ++ bs) := by
  rw [Memory.store, filter_lt_store, filter_ge_store m (by omega), Memory.store, cellsAt_append, List.length_append,
    Nat.add_assoc]
  simp only [List.append_assoc]

/-- Storing nothing at the start of a buffer leaves it. -/
theorem store_zero_nil (m : Memory) : m.store 0 [] = m := by simp [Memory.store, cellsAt]

/-! #### The host's load and the writes of the input -/

/-- `IBUF[0..len(bs)) <- bs; ILEN <- len(bs)` (R57). -/
def loadInput (bs : List Byte) (s : State) : State := { s.writeIbuf 0 bs with ilen := BitVec.ofNat 16 bs.length }

section

variable {s : State} {bs : List Byte}

/-- `LOAD` sets the input in `IDLE` only, and up to 4104 bytes only (R57, R320). -/
theorem hostLoad_eq (bs : List Byte) (s : State) :
    hostLoad bs s = if s.lstate ≠ .idle then .refused .loadWhileActive
      else if 4104 < bs.length then .refused .loadTooLong else .next (loadInput bs s) := rfl

theorem hostLoad_of_idle (hl : s.lstate = .idle) (hn : bs.length ≤ 4104) :
    hostLoad bs s = .next (loadInput bs s) := by
  rw [hostLoad_eq, if_neg (not_not.2 hl), if_neg (not_lt.2 hn)]

theorem loadInput_ilen (hn : bs.length ≤ 4104) : (loadInput bs s).ilen.toNat = bs.length :=
  Nat.mod_eq_of_lt (by omega)

theorem input_loadInput (hn : bs.length ≤ 4104) : input (loadInput bs s) = bs := by
  rw [input, loadInput_ilen hn]
  exact memRead_writeIbuf s 0 bs

theorem byteAt_loadInput {a : Nat} (ha : bs.length ≤ a) : (loadInput bs s).byteAt .ibuf a = s.byteAt .ibuf a :=
  (byteAt_writeIbuf_ibuf s 0 bs a).trans (if_neg (by omega))

/-- A write in the IBUF window stores the low byte, in `IDLE` only (R57, R66). -/
theorem hostWrite_window {a : Nat} (v : Word) (ha : 0x2000 ≤ a ∧ a < 0x3008) :
    hostWrite a v s = if s.lstate ≠ .idle then .refused .loadWhileActive
      else .next (s.writeIbuf (a - 0x2000) [v.extractLsb' 0 8]) :=
  if_pos ((ibufWindow_iff a).2 ha)

/-- One byte write of the IBUF window, by the byte's index. -/
theorem hostWrite_ibuf {i : Nat} (v : Word) (hl : s.lstate = .idle) (hi : i < 4104) :
    hostWrite (0x2000 + i) v s = .next (s.writeIbuf i [v.extractLsb' 0 8]) := by
  rw [hostWrite_window v (by omega), if_neg (not_not.2 hl), Nat.add_sub_cancel_left]

/-- A write of `ILEN` sets it up to 4104 and is ignored above, in `IDLE` only (R57, R66). -/
theorem hostWrite_ilen (v : Word) :
    hostWrite 0x10 v s = if s.lstate ≠ .idle then .refused .loadWhileActive
      else if v.toNat > 4104 then .next s else .next { s with ilen := v.setWidth 16 } := by
  rw [hostWrite_aligned v s (by decide) rfl]; rfl

theorem hostWrite_ilen_of_le {v : Word} (hl : s.lstate = .idle) (hv : v.toNat ≤ 4104) :
    hostWrite 0x10 v s = .next { s with ilen := v.setWidth 16 } := by
  rw [hostWrite_ilen, if_neg (not_not.2 hl), if_neg (not_lt.2 hv)]

/-- A write of IBUF that begins where the one before it ended makes the two one write. -/
theorem writeIbuf_append (s : State) (as bs : List Byte) :
    (s.writeIbuf 0 as).writeIbuf as.length bs = s.writeIbuf 0 (as ++ bs) := by
  have hstore := store_append s.ibuf 0 as bs
  rw [Nat.zero_add] at hstore
  rw [State.writeIbuf, writeIbuf_ibuf, hstore]; rfl

/-- The byte writes that continue a string already stored store the whole string. -/
theorem writeBytes_writeIbuf {as : List Byte} (hl : s.lstate = .idle) (hn : as.length + bs.length ≤ 4104) :
    writeBytes as.length bs (s.writeIbuf 0 as) = .next (s.writeIbuf 0 (as ++ bs)) := by
  induction bs generalizing as with
  | nil => rw [List.append_nil]; rfl
  | cons b bs ih =>
    rw [List.length_cons] at hn
    have hbyte : (b.setWidth 32).extractLsb' 0 8 = b := by
      rw [← BitVec.setWidth_eq_extractLsb' (by decide), BitVec.setWidth_setWidth_of_le _ (by decide),
        BitVec.setWidth_eq]
    have hwrite : hostWrite (0x2000 + as.length) (b.setWidth 32) (s.writeIbuf 0 as) =
        .next (s.writeIbuf 0 (as ++ [b])) := by
      rw [hostWrite_ibuf (s := s.writeIbuf 0 as) _ hl (by omega), hbyte, writeIbuf_append]
    have hrest := ih (as := as ++ [b]) (by rw [List.length_append, List.length_singleton]; omega)
    rw [writeBytes, hwrite]
    rw [List.length_append, List.length_singleton, List.append_assoc] at hrest
    exact hrest

/-- The byte writes of a load, from the start of the buffer. -/
theorem writeBytes_zero (hl : s.lstate = .idle) (hn : bs.length ≤ 4104) :
    writeBytes 0 bs s = .next (s.writeIbuf 0 bs) := by
  have hs : s.writeIbuf 0 [] = s := by rw [State.writeIbuf, store_zero_nil]
  have h := writeBytes_writeIbuf (as := []) (bs := bs) hl (by rwa [List.length_nil, Nat.zero_add])
  rwa [hs] at h

/-- The write of `ILEN` after the byte writes leaves the state of the load. -/
theorem hostWrite_ilen_writeIbuf (hl : s.lstate = .idle) (hn : bs.length ≤ 4104) :
    hostWrite 0x10 (BitVec.ofNat 32 bs.length) (s.writeIbuf 0 bs) = .next (loadInput bs s) := by
  have hlen : (BitVec.ofNat 32 bs.length).toNat = bs.length := Nat.mod_eq_of_lt (by omega)
  rw [hostWrite_ilen_of_le (s := s.writeIbuf 0 bs) hl (hlen.le.trans hn), BitVec.setWidth_ofNat_of_le (by decide)]; rfl

end

/-- Settles O56: the load, its byte writes and its write of `ILEN` in `IDLE`, each refused while a link activity is in
progress. The byte writes give the state of the load on every buffer, in canonical form or not. -/
theorem loadSetsTheInput : Obligations.LoadSetsTheInput := by
  refine ⟨fun s bs rest hm => step_of_move hm, fun s a v rest hm => step_of_move hm,
    fun s bs hl hn => ⟨loadInput bs s, hostLoad_of_idle hl hn, rfl, loadInput_ilen hn, input_loadInput hn,
      fun a ha => byteAt_loadInput ha⟩,
    fun s bs hl => (hostLoad_eq bs s).trans (if_pos hl), fun s bs hl hn => ?_,
    fun s bs hl hn _ => ⟨_, _, writeBytes_zero hl hn, hostWrite_ilen_writeIbuf hl hn, hostLoad_of_idle hl hn⟩,
    fun s i v hl hi => ⟨_, hostWrite_ibuf v hl hi, rfl, fun a => ?_⟩,
    fun s v hl hv => ⟨_, hostWrite_ilen_of_le hl hv, rfl, ?_⟩,
    fun s v hl hv => ?_, fun s a v hl ha => ?_⟩
  · rw [hostLoad_eq, if_neg (not_not.2 hl), if_pos hn]
  · rw [byteAt_writeIbuf_ibuf]
    by_cases ha : a = i
    · simp [ha]
    · rw [if_neg ha, if_neg (by simp only [List.length_singleton]; omega)]
  · exact Nat.mod_eq_of_lt (by omega)
  · rw [hostWrite_ilen, if_neg (not_not.2 hl), if_pos hv]
  · obtain hwin | rfl := ha
    · rw [hostWrite_window v hwin, if_pos hl]
    · rw [hostWrite_ilen, if_pos hl]

end Sys2Proof.Proofs

/-! ### Command words: encoding, decoding and the opcode table (R70 to R74, R321) -/

namespace Sys2Proof.Proofs

open Sys2Proof Sys2Proof.Machine Sys2Proof.Spec Sys2Proof.Laws

section

variable {n k : Nat} {op : Byte} {arg : Word} {w : CmdWord} {i : Instr}

/-! #### Operands and reserved bits -/

theorem setWidth_eq_zero_append (v : BitVec n) : v.setWidth (k + n) = 0#k ++ v := by
  rw [BitVec.setWidth_eq_append (Nat.le_add_left ..)]
  simp

/-- The check of the reserved bits, which formats C, B and S share: it passes exactly on the zero-extended operands
(R71). -/
theorem reservedCheck_eq_ok_iff {x : BitVec (k + n)} {f : BitVec n → Instr} {e : DecodeError} :
    (if x.extractLsb' n k = 0 then Except.ok (f (x.extractLsb' 0 n)) else .error e) = .ok i ↔
      ∃ v, i = f v ∧ x = v.setWidth (k + n) := by
  constructor
  · intro h
    split at h
    next hres =>
      refine ⟨x.extractLsb' 0 n, (Except.ok.inj h).symm, ?_⟩
      calc x = x.extractLsb' n k ++ x.extractLsb' 0 n := BitVec.extractLsb'_append_extractLsb'.symm
        _ = (x.extractLsb' 0 n).setWidth (k + n) := by rw [hres, setWidth_eq_zero_append]; rfl
    next => cases h
  · rintro ⟨v, rfl, rfl⟩
    have hhigh := extractLsb'_append_high (k := k) (0#k) v 0
    rw [Nat.zero_add, BitVec.extractLsb'_eq_self] at hhigh
    rw [setWidth_eq_zero_append, hhigh, extractLsb'_append_low]
    exact if_pos rfl

/-! #### The formats (R71) -/

theorem formatN_eq_ok_iff {j : Instr} : formatN op arg j = .ok i ↔ i = j ∧ arg = 0 := by
  rw [formatN]
  split
  next h => exact ⟨fun hj => ⟨(Except.ok.inj hj).symm, h⟩, fun hj => congrArg Except.ok hj.1.symm⟩
  next h => exact ⟨nofun, fun hj => absurd hj.2 h⟩

theorem formatC_eq_ok_iff {f : BitVec 3 → Instr} :
    formatC op arg f = .ok i ↔ ∃ c, i = f c ∧ arg = c.setWidth 32 :=
  reservedCheck_eq_ok_iff (n := 3) (k := 29)

theorem formatB_eq_ok_iff {f : Byte → Instr} :
    formatB op arg f = .ok i ↔ ∃ b, i = f b ∧ arg = b.setWidth 32 :=
  reservedCheck_eq_ok_iff (n := 8) (k := 24)

theorem formatS_eq_ok_iff {f : Half → Instr} :
    formatS op arg f = .ok i ↔ ∃ q, i = f q ∧ arg = q.setWidth 32 :=
  reservedCheck_eq_ok_iff (n := 16) (k := 16)

theorem formatW_eq_ok_iff {f : Word → Instr} : formatW arg f = .ok i ↔ i = f arg := by
  rw [formatW, Except.ok.injEq, eq_comm]

/-- The four bytes of a format P argument are the argument. -/
theorem extractLsb'_bytes_append (arg : Word) :
    arg.extractLsb' 24 8 ++ arg.extractLsb' 16 8 ++ arg.extractLsb' 8 8 ++ arg.extractLsb' 0 8 = arg := by
  have hjoin {i j k : Nat} (h : i = j + 8) : arg.extractLsb' i k ++ arg.extractLsb' j 8 = arg.extractLsb' j (k + 8) :=
    BitVec.extractLsb'_append_extractLsb'_eq_extractLsb' h
  rw [hjoin (i := 24) (j := 16) rfl, hjoin (i := 16) (j := 8) rfl, hjoin (i := 8) (j := 0) rfl,
    BitVec.extractLsb'_eq_self]

theorem formatP_eq_ok_iff {f : Byte → Byte → Byte → Byte → Instr} :
    formatP arg f = .ok i ↔ ∃ d s r q, i = f d s r q ∧ arg = d ++ s ++ r ++ q := by
  constructor
  · intro h
    exact ⟨_, _, _, _, (Except.ok.inj h).symm, (extractLsb'_bytes_append arg).symm⟩
  · rintro ⟨d, s, r, q, rfl, rfl⟩
    have hd : (d ++ s ++ r ++ q).extractLsb' 24 8 = d := by
      rw [extractLsb'_append_high _ q 16, extractLsb'_append_high _ r 8, extractLsb'_append_high d s 0,
        BitVec.extractLsb'_eq_self]
    have hs : (d ++ s ++ r ++ q).extractLsb' 16 8 = s := by
      rw [extractLsb'_append_high _ q 8, extractLsb'_append_high _ r 0, extractLsb'_append_low]
    have hr : (d ++ s ++ r ++ q).extractLsb' 8 8 = r := by
      rw [extractLsb'_append_high _ q 0, extractLsb'_append_low]
    rw [formatP, hd, hs, hr, extractLsb'_append_low]

/-! #### Decoding and encoding -/

/-- The opcode map and the encoder's two tables say the same: what decodes to a command is that command's opcode and
argument, and nothing else. -/
theorem decodeFields_eq_ok_iff : decodeFields op arg = .ok i ↔ op = i.opcode ∧ arg = i.arg := by
  constructor
  · intro h
    unfold decodeFields at h
    split at h
    case h_2 => obtain ⟨c, rfl, rfl⟩ := formatC_eq_ok_iff.1 h; exact ⟨rfl, rfl⟩
    case h_5 | h_7 | h_9 => obtain ⟨q, rfl, rfl⟩ := formatS_eq_ok_iff.1 h; exact ⟨rfl, rfl⟩
    case h_11 => obtain ⟨b, rfl, rfl⟩ := formatB_eq_ok_iff.1 h; exact ⟨rfl, rfl⟩
    case h_15 => obtain ⟨d, s, r, q, rfl, rfl⟩ := formatP_eq_ok_iff.1 h; exact ⟨rfl, rfl⟩
    case h_18 => obtain rfl := formatW_eq_ok_iff.1 h; exact ⟨rfl, rfl⟩
    case h_20 => cases h
    all_goals obtain ⟨rfl, rfl⟩ := formatN_eq_ok_iff.1 h; exact ⟨rfl, rfl⟩
  · rintro ⟨rfl, rfl⟩
    cases i with
    | wrCfg c => exact formatC_eq_ok_iff.2 ⟨c, rfl, rfl⟩
    | encHdr q | frmEnc q | txStart q => exact formatS_eq_ok_iff.2 ⟨q, rfl, rfl⟩
    | linkByte b => exact formatB_eq_ok_iff.2 ⟨b, rfl, rfl⟩
    | pktCreate d s r q => exact formatP_eq_ok_iff.2 ⟨d, s, r, q, rfl, rfl⟩
    | syncBoot v => exact formatW_eq_ok_iff.2 rfl
    | _ => exact formatN_eq_ok_iff.2 ⟨rfl, rfl⟩

/-- A command word is its opcode above its argument (R70). -/
theorem opcodeOf_append_argOf (w : CmdWord) : opcodeOf w ++ argOf w = w :=
  BitVec.extractLsb'_append_extractLsb' (w := 8) (len := 32)

/-- Each command has one word, and each word that decodes is the word of its command. -/
theorem decode_eq_ok_iff : decode w = .ok i ↔ w = encode i := by
  constructor
  · intro h
    obtain ⟨hop, harg⟩ := decodeFields_eq_ok_iff.1 h
    rw [← opcodeOf_append_argOf w, hop, harg, encode]
  · rintro rfl
    rw [encode, decode_append, decodeFields_eq_ok_iff]
    exact ⟨rfl, rfl⟩

end

/-- Settles O1: the encoding of a command is the word that decodes to it. -/
theorem decodeOfEncode : Obligations.DecodeOfEncode := fun _ => decode_eq_ok_iff.2 rfl

/-- Settles O2: a word that decodes is determined, opcode and argument, by its command. -/
theorem encodeOfDecode : Obligations.EncodeOfDecode := fun _ _ h => (decode_eq_ok_iff.1 h).symm

/-- Settles O4: each word is the encoding of the command it is said to decode to. -/
theorem wordsOfEachFormatDecode : Obligations.WordsOfEachFormatDecode :=
  ⟨decodeOfEncode .nop, decodeOfEncode (.wrCfg 5), decodeOfEncode (.linkByte 0x21), decodeOfEncode (.encHdr 0xFFFF),
    decodeOfEncode (.syncBoot 474), decodeOfEncode (.pktCreate 1 2 3 4), decodeOfEncode .nvLoad⟩

/-! #### The opcode table (R73) -/

/-- Every command's word selects a row of the table that bears its mnemonic and its format. -/
theorem rowSelected (i : Instr) : RowSelected.Statement i := by
  cases i with
  | nop => exact RowSelected.nop
  | wrCfg c => exact RowSelected.wrCfg c
  | clrSticky => exact RowSelected.clrSticky
  | crc32 => exact RowSelected.crc32
  | encHdr q => exact RowSelected.encHdr q
  | decHdr => exact RowSelected.decHdr
  | frmEnc q => exact RowSelected.frmEnc q
  | frmDec => exact RowSelected.frmDec
  | txStart q => exact RowSelected.txStart q
  | rxStart => exact RowSelected.rxStart
  | linkByte b => exact RowSelected.linkByte b
  | linkTimeout => exact RowSelected.linkTimeout
  | linkAbort => exact RowSelected.linkAbort
  | sha256 => exact RowSelected.sha256
  | pktCreate d s f q => exact RowSelected.pktCreate d s f q
  | pktParse => exact RowSelected.pktParse
  | advMsgid => exact RowSelected.advMsgid
  | syncBoot v => exact RowSelected.syncBoot v
  | nvLoad => exact RowSelected.nvLoad

section

variable {m n k : Nat} {op : Byte} {arg : Word} {w : CmdWord}

/-- Bits that a mask keeps whole are read from what the mask leaves. -/
theorem extractLsb'_of_and_eq {x mask pat : BitVec m} (hmask : mask.extractLsb' n k = BitVec.allOnes k)
    (h : x &&& mask = pat) : x.extractLsb' n k = pat.extractLsb' n k := by
  rw [← h, BitVec.extractLsb'_and, hmask, BitVec.and_allOnes]

/-- A row fixes the whole opcode. -/
theorem opcodeOf_of_selects {r : TableRow} (hr : r ∈ opcodeTable) (h : r.selects w = true) :
    opcodeOf w = opcodeOf r.pattern := by
  have hmask : ∀ r ∈ opcodeTable, opcodeOf r.mask = BitVec.allOnes 8 := by decide
  exact extractLsb'_of_and_eq (hmask r hr) (beq_iff_eq.1 h)

/-- A row's mask on the argument. -/
theorem argOf_of_selects {r : TableRow} (h : r.selects w = true) : argOf w &&& argOf r.mask = argOf r.pattern := by
  rw [← beq_iff_eq.1 h]
  exact BitVec.extractLsb'_and.symm

/-- No two rows have the same opcode, so no word selects two rows. -/
theorem row_unique {r q : TableRow} (hr : r ∈ opcodeTable) (hq : q ∈ opcodeTable) (hrw : r.selects w = true)
    (hqw : q.selects w = true) : r = q := by
  have hinj : ∀ r ∈ opcodeTable, ∀ q ∈ opcodeTable, opcodeOf r.pattern = opcodeOf q.pattern → r = q := by
    decide
  exact hinj r hr q hq ((opcodeOf_of_selects hr hrw).symm.trans (opcodeOf_of_selects hq hqw))

/-- The row's opcode decodes with every argument whose reserved bits are as the row has them. -/
def RowDecodes (r : TableRow) : Prop :=
  ∀ arg : Word, arg &&& argOf r.mask = argOf r.pattern → ∃ i, decodeFields (opcodeOf r.pattern) arg = .ok i

/-- A field of the argument is 0 when a mask of all its bits leaves 0. -/
theorem extractLsb'_eq_zero_of_and {x mask : BitVec m} (hmask : mask.extractLsb' n k = BitVec.allOnes k)
    (h : x &&& mask = 0) : x.extractLsb' n k = 0 := by
  rw [extractLsb'_of_and_eq hmask h]
  exact BitVec.extractLsb'_zero

theorem formatN_accepts {i : Instr} (h : arg &&& 0xFFFFFFFF = 0) : ∃ j, formatN op arg i = .ok j :=
  ⟨i, if_pos ((BitVec.and_allOnes (x := arg)).symm.trans h)⟩

theorem formatC_accepts {i : BitVec 3 → Instr} (h : arg &&& 0xFFFFFFF8 = 0) : ∃ j, formatC op arg i = .ok j :=
  ⟨_, if_pos (extractLsb'_eq_zero_of_and (by decide) h)⟩

theorem formatB_accepts {i : Byte → Instr} (h : arg &&& 0xFFFFFF00 = 0) : ∃ j, formatB op arg i = .ok j :=
  ⟨_, if_pos (extractLsb'_eq_zero_of_and (by decide) h)⟩

theorem formatS_accepts {i : Half → Instr} (h : arg &&& 0xFFFF0000 = 0) : ∃ j, formatS op arg i = .ok j :=
  ⟨_, if_pos (extractLsb'_eq_zero_of_and (by decide) h)⟩

/-- Row by row, the format's check is the row's mask on the argument. -/
theorem rowDecodes : ∀ r ∈ opcodeTable, RowDecodes r := by
  simp only [opcodeTable, List.forall_mem_cons]
  exact ⟨fun _ => formatN_accepts, fun _ => formatC_accepts, fun _ => formatN_accepts, fun _ => formatN_accepts,
    fun _ => formatS_accepts, fun _ => formatN_accepts, fun _ => formatS_accepts, fun _ => formatN_accepts,
    fun _ => formatS_accepts, fun _ => formatN_accepts, fun _ => formatB_accepts, fun _ => formatN_accepts,
    fun _ => formatN_accepts, fun _ => formatN_accepts, fun _ _ => ⟨_, rfl⟩, fun _ => formatN_accepts,
    fun _ => formatN_accepts, fun _ _ => ⟨_, rfl⟩, fun _ => formatN_accepts, nofun⟩

/-- A word that selects a row is a command (R73, R321). -/
theorem decode_of_selects {r : TableRow} (hr : r ∈ opcodeTable) (h : r.selects w = true) :
    ∃ i, decode w = .ok i := by
  rw [decode, opcodeOf_of_selects hr h]
  exact rowDecodes r hr _ (argOf_of_selects h)

end

/-- Settles O3: a command's word selects its row, the words of a row decode, and the rows differ in their opcodes. -/
theorem decodeAcceptsExactlyTheTableRows : Obligations.DecodeAcceptsExactlyTheTableRows := by
  have hrow {w : CmdWord} {i : Instr} (h : decode w = .ok i) :
      ∃ r ∈ opcodeTable, r.selects w = true ∧ r.mnemonic = i.mnemonic := by
    obtain ⟨r, hr, hsel, hmnem, -⟩ := rowSelected i
    exact ⟨r, hr, decode_eq_ok_iff.1 h ▸ hsel, hmnem⟩
  refine ⟨fun w => ⟨fun ⟨i, hi⟩ => ?_, fun ⟨r, hr, hsel⟩ => decode_of_selects hr hsel⟩,
    fun w i hi r hr hsel => ?_, fun w r hr q hq => row_unique hr hq⟩
  · obtain ⟨r, hr, hsel, -⟩ := hrow hi
    exact ⟨r, hr, hsel⟩
  · obtain ⟨q, hq, hqsel, hmnem⟩ := hrow hi
    rw [row_unique hr hq hsel hqsel, hmnem]

end Sys2Proof.Proofs

/-! ### The layouts of the frame header and of the packet (R78, R84, R85, R110) -/

namespace Sys2Proof.Proofs

open Sys2Proof Sys2Proof.Machine

/-! #### Little-endian bytes and slices -/

/-- A byte of a word is any number that is that byte modulo 256. -/
theorem extractLsb'_eq_ofNat {n i x : Nat} {v : BitVec n} (h : x % 256 = v.toNat / 2 ^ i % 256) :
    v.extractLsb' i 8 = BitVec.ofNat 8 x := by
  refine BitVec.eq_of_toNat_eq ?_
  rw [BitVec.extractLsb'_toNat, Nat.shiftRight_eq_div_pow, BitVec.toNat_ofNat]
  exact h.symm

theorem le16_eq (v : Half) : le16 v = [BitVec.ofNat 8 (v.toNat % 256), BitVec.ofNat 8 (v.toNat / 256)] := by
  rw [le16, extractLsb'_eq_ofNat (x := v.toNat % 256) (by omega), extractLsb'_eq_ofNat (x := v.toNat / 256) (by omega)]

theorem le32_eq (v : Word) :
    le32 v = [BitVec.ofNat 8 (v.toNat % 256), BitVec.ofNat 8 (v.toNat / 256 % 256),
      BitVec.ofNat 8 (v.toNat / 65536 % 256), BitVec.ofNat 8 (v.toNat / 16777216)] := by
  rw [le32, extractLsb'_eq_ofNat (x := v.toNat % 256) (by omega),
    extractLsb'_eq_ofNat (x := v.toNat / 256 % 256) (by omega),
    extractLsb'_eq_ofNat (x := v.toNat / 65536 % 256) (by omega),
    extractLsb'_eq_ofNat (x := v.toNat / 16777216) (by omega)]

/-- The middle of a byte string in three parts. -/
theorem slice_append {p a b c : List Byte} {i j : Nat} (hp : p = a ++ b ++ c) (hi : i = a.length)
    (hj : j = i + b.length) : slice p i j = b := by
  subst hp hi hj
  simp [slice]

/-! #### The frame header -/

/-- Taking a built header apart gives its three fields back (R110). -/
theorem fields_hdr (p : List Byte) (q : Half) :
    fields (hdr p q) = ⟨BitVec.ofNat 16 p.length, q, Config.crc32 p⟩ := by
  have hlen : slice (hdr p q) 0 2 = le16 (BitVec.ofNat 16 p.length) := rfl
  have hseq : slice (hdr p q) 2 4 = le16 q := rfl
  have hcrc : slice (hdr p q) 4 8 = le32 (Config.crc32 p) := rfl
  simp only [fields, hlen, hseq, hcrc, fromLe_le16, fromLe_le32, BitVec.ofNat_toNat, BitVec.setWidth_eq]

/-- The length of a payload fits the header's `length` field. -/
theorem toNat_ofNat_length {p : List Byte} (hp : p.length ≤ 4096) : (BitVec.ofNat 16 p.length).toNat = p.length :=
  Nat.mod_eq_of_lt (by omega)

/-- Settles O12: the bytes are those of `le16` and `le32`, and `fields` undoes them. -/
theorem frameHeaderLayoutAndRoundTrip : Obligations.FrameHeaderLayoutAndRoundTrip := by
  intro p q hp
  rw [fields_hdr]
  refine ⟨?_, toNat_ofNat_length hp, rfl, rfl⟩
  rw [hdr, le16_eq, le16_eq, le32_eq, toNat_ofNat_length hp]; rfl

/-! #### The packet -/

/-- Settles O35: each field of the packet stands between what comes before it and what comes after it. -/
theorem packetLayout : Obligations.PacketLayout := by
  rintro key data dst src flags seq boot msg p hdata rfl
  have hboot : slice (packet key dst src flags seq data boot msg) (5 + data.length) (9 + data.length) = le32 boot :=
    slice_append (a := pktHeader dst src flags seq data.length ++ data)
      (by simp only [packet, pktBody, pktFooter, List.append_assoc]; rfl) (by simp) (by simp; omega)
  have hmsg : slice (packet key dst src flags seq data boot msg) (9 + data.length) (13 + data.length) = le32 msg :=
    slice_append (a := pktHeader dst src flags seq data.length ++ data ++ le32 boot)
      (by simp only [packet, pktBody, pktFooter, List.append_assoc]; rfl) (by simp; omega) (by simp; omega)
  have hbody : slice (packet key dst src flags seq data boot msg) 0 (13 + data.length) =
      pktBody dst src flags seq data boot msg := slice_append (a := []) rfl rfl (by simp)
  refine ⟨packet_length .., by rw [packet_length]; omega, ?_, ?_, by rw [hboot, fromLe_le32],
    by rw [hmsg, fromLe_le32], ?_⟩
  · exact slice_append (a := []) (by simp only [packet, pktBody, List.append_assoc]; rfl) rfl rfl
  · exact slice_append (a := pktHeader dst src flags seq data.length)
      (by simp only [packet, pktBody, List.append_assoc]; rfl) rfl rfl
  · rw [hbody]
    exact slice_append (c := []) (List.append_nil _).symm (by simp) (by simp; omega)

end Sys2Proof.Proofs

/-! ### A transmission with every acknowledgement and a reception with every byte (R80, R130 to R140, R150 to R164)

The link events of a clean run, one after the other: an equation for each transition that such a run takes, then the
states that it leaves, phase by phase. -/

namespace Sys2Proof.Proofs

open Sys2Proof Sys2Proof.Machine Sys2Proof.Spec

section

variable {s t : State} {ev : LinkEvent} {evs : List LinkEvent} {b : Byte}

/-! #### Feeding link events -/

/-- A byte that goes on is followed by the other events. -/
theorem feed_byte_cons (h : exec (.linkByte b) s = .next t) : feed (.byte b :: evs) s = feed evs t := by
  rw [feed, eventInstr, h]

theorem feed_byte_singleton (b : Byte) (s : State) : feed [.byte b] s = exec (.linkByte b) s := by
  rw [feed, eventInstr]
  cases exec (.linkByte b) s <;> rfl

/-- Events that go on are followed by the others. -/
theorem feed_append_of_next {evs' : List LinkEvent} (h : feed evs s = .next t) :
    feed (evs ++ evs') s = feed evs' t := by
  induction evs generalizing s with
  | nil => cases h; rfl
  | cons ev evs ih =>
    rw [List.cons_append, feed]
    rw [feed] at h
    cases hev : exec (eventInstr ev) s with
    | next u => rw [hev] at h; exact ih h
    | fault r => rw [hev] at h; cases h
    | refused r => rw [hev] at h; cases h

/-! #### The transition of each state (R152) -/

theorem linkEvent_of_rxHunt (hl : s.lstate = .rxHunt) : linkEvent ev s = rxHunt ev s := by
  simp only [linkEvent, hl]

theorem linkEvent_of_rxWaitStart (hl : s.lstate = .rxWaitStart) : linkEvent ev s = rxWaitStart ev s := by
  simp only [linkEvent, hl]

theorem linkEvent_of_rxHeader (hl : s.lstate = .rxHeader) : linkEvent ev s = rxHeader ev s := by
  simp only [linkEvent, hl]

theorem linkEvent_of_rxPayload (hl : s.lstate = .rxPayload) : linkEvent ev s = rxPayload ev s := by
  simp only [linkEvent, hl]

theorem linkEvent_of_txWaitSyncAck (hl : s.lstate = .txWaitSyncAck) : linkEvent ev s = txSyncAck ev s := by
  simp only [linkEvent, hl]

theorem linkEvent_of_txWaitHdrAck (hl : s.lstate = .txWaitHdrAck) : linkEvent ev s = txHdrAck ev s := by
  simp only [linkEvent, hl]

theorem linkEvent_of_txWaitPayAck (hl : s.lstate = .txWaitPayAck) : linkEvent ev s = txPayAck ev s := by
  simp only [linkEvent, hl]

/-! #### The transmission, each wait acknowledged (R135) -/

/-- The transmission started: the header is latched and the sync run is sent (R131). -/
def syncSent (q : Half) (s : State) : State :=
  complete <| emit (syncBytes s)
    { setEncoded q (clearLink s) with
      hbuf := latch (hdr (input s) q), txTries := 1, lstate := .txWaitSyncAck }

/-- `TX_START` in `IDLE`, on an input that a frame can carry. -/
theorem execTxStart_of_le (q : Half) (hl : s.lstate = .idle) (hn : s.ilen.toNat ≤ 4096) :
    exec (.txStart q) s = .next (syncSent q s) :=
  (whenIdle_of_idle hl _).trans (congrArg Host.Outcome.next (if_neg (not_lt.2 hn)))

/-- The sync run acknowledged: the marker and the header are sent (R135). -/
def headerSent (s : State) : State :=
  complete { emit ([Config.startByte] ++ s.hbuf.toList) s with lstate := .txWaitHdrAck }

/-- The header acknowledged: the payload is sent (R133, R135). -/
def payloadSent (s : State) : State := complete { emit (input s) s with lstate := .txWaitPayAck }

theorem txSyncAck_ack (hl : s.lstate = .txWaitSyncAck) : exec (.linkByte 0x21) s = .next (headerSent s) :=
  linkEvent_of_txWaitSyncAck hl

theorem txHdrAck_ack (hl : s.lstate = .txWaitHdrAck) (hn : s.ilen.toNat ≤ 4104) :
    exec (.linkByte 0x21) s = .next (payloadSent s) :=
  (linkEvent_of_txWaitHdrAck hl).trans (withinBuffer_of_le hn _)

theorem txPayAck_ack (hl : s.lstate = .txWaitPayAck) :
    exec (.linkByte 0x21) s = .next (complete (linkEnd .txOk .none 0 0 s)) :=
  linkEvent_of_txWaitPayAck hl

/-- Three acknowledgements take a waiting transmission through the header and the payload to `TX_OK`. -/
theorem feed_three_acks (hl : s.lstate = .txWaitSyncAck) (hn : s.ilen.toNat ≤ 4104) :
    feed [.byte 0x21, .byte 0x21, .byte 0x21] s =
      .next (complete (linkEnd .txOk .none 0 0 (payloadSent (headerSent s)))) := by
  have hhdr : (headerSent s).ilen.toNat ≤ 4104 := hn
  rw [feed_byte_cons (txSyncAck_ack hl), feed_byte_cons (txHdrAck_ack rfl hhdr), feed_byte_cons (txPayAck_ack rfl)]
  rfl

end

/-- Settles O20: the sync run is emitted by `TX_START`, the rest of the frame by the acknowledgements. -/
theorem cleanTransmissionEmitsTheWireFrame : Obligations.CleanTransmissionEmitsTheWireFrame := by
  intro s q hl hn
  have hilen : (syncSent q s).ilen.toNat ≤ 4104 := hn.trans (by decide)
  refine ⟨syncSent q s, _, execTxStart_of_le q hl hn, feed_three_acks rfl hilen, ?_, rfl, rfl, rfl, rfl, ?_, ?_⟩
  · show s.txout ++ syncBytes s ++ ([0x40] ++ hdr (input s) q) ++ input s = _
    simp only [List.append_assoc]; rfl
  · simp [payloadSent, headerSent, syncSent, setEncoded]
  · simp [payloadSent, headerSent, syncSent, setEncoded]

end Sys2Proof.Proofs

/-! ### A reception of the whole wire frame (R80, R150 to R164) -/

namespace Sys2Proof.Proofs

open Sys2Proof Sys2Proof.Machine Sys2Proof.Spec

section

variable {s : State} {b : Byte} {p : List Byte} {q : Half}

/-! #### The sync run and the start marker (R156, R158) -/

/-- The hunt started (R151). -/
def hunting (s : State) : State := complete { clearLink s with olen := 0, lstate := .rxHunt }

/-- A sync byte that does not complete the run. -/
def syncCounted (s : State) : State := complete { s with syncCnt := s.syncCnt + 1 }

/-- The sync run received and acknowledged. -/
def runAcked (s : State) : State :=
  complete (emit [Config.ackByte] { s with syncCnt := s.syncCnt + 1, missCnt := 0, lstate := .rxWaitStart })

/-- The start marker received. -/
def startReceived (s : State) : State := complete { s with byteIdx := 0, lstate := .rxHeader }

theorem execRxStart_of_idle (hl : s.lstate = .idle) : exec .rxStart s = .next (hunting s) := whenIdle_of_idle hl _

theorem rxHunt_sync (hl : s.lstate = .rxHunt) (hb : b = s.params.syncByte) (hc : s.syncCnt ≠ 2) :
    exec (.linkByte b) s = .next (syncCounted s) :=
  (linkEvent_of_rxHunt hl).trans <| (if_pos hb).trans <| if_neg (mt (succ_eq_syncRun_iff _).1 hc)

theorem rxHunt_run (hl : s.lstate = .rxHunt) (hb : b = s.params.syncByte) (hc : s.syncCnt = 2) :
    exec (.linkByte b) s = .next (runAcked s) :=
  (linkEvent_of_rxHunt hl).trans <| (if_pos hb).trans <| if_pos ((succ_eq_syncRun_iff _).2 hc)

theorem rxWaitStart_start (hl : s.lstate = .rxWaitStart) (hb : b = Config.startByte) :
    exec (.linkByte b) s = .next (startReceived s) := (linkEvent_of_rxWaitStart hl).trans (if_pos hb)

/-- The hunt after the sync run: one acknowledgement sent. -/
def runReceived (s : State) : State := runAcked (syncCounted (syncCounted (hunting s)))

/-- The sync run and the start marker take the hunt to the header. -/
theorem feed_preamble (s : State) :
    feed ((List.replicate 3 s.params.syncByte ++ [0x40]).map .byte) (hunting s) =
      .next (startReceived (runReceived s)) := by
  have h1 : exec (.linkByte s.params.syncByte) (hunting s) = .next (syncCounted (hunting s)) :=
    rxHunt_sync rfl rfl (show (0 : BitVec 2) ≠ 2 by decide)
  have h2 : exec (.linkByte s.params.syncByte) (syncCounted (hunting s)) =
      .next (syncCounted (syncCounted (hunting s))) := rxHunt_sync rfl rfl (show (1 : BitVec 2) ≠ 2 by decide)
  have h3 : exec (.linkByte s.params.syncByte) (syncCounted (syncCounted (hunting s))) = .next (runReceived s) :=
    rxHunt_run rfl rfl rfl
  have h4 : exec (.linkByte 0x40) (runReceived s) = .next (startReceived (runReceived s)) := rxWaitStart_start rfl rfl
  exact (feed_byte_cons h1).trans <| (feed_byte_cons h2).trans <| (feed_byte_cons h3).trans <| feed_byte_cons h4

/-! #### A phase of the reception -/

/-- `P as` is the state after the bytes `as` of a phase of `n` bytes: every byte is taken, and the last one is followed
by `done`. -/
def IsPhase (P : List Byte → State) (n : Nat) (done : State → Result) : Prop :=
  ∀ (as : List Byte) (b : Byte), as.length < n → exec (.linkByte b) (P as) =
    if as.length + 1 = n then done (P (as ++ [b])) else .next (P (as ++ [b]))

/-- The bytes that complete a phase. -/
theorem IsPhase.feed {P : List Byte → State} {n : Nat} {done : State → Result} (h : IsPhase P n done)
    {as bs : List Byte} (hn : as.length + bs.length = n) (hbs : bs ≠ []) :
    feed (bs.map .byte) (P as) = done (P (as ++ bs)) := by
  induction bs generalizing as with
  | nil => exact absurd rfl hbs
  | cons b bs ih =>
    rw [List.length_cons] at hn
    have hbyte := h as b (by omega)
    cases bs with
    | nil => exact (feed_byte_singleton b _).trans (hbyte.trans (if_pos hn))
    | cons c bs =>
      rw [List.length_cons] at hn
      have hrest := ih (as := as ++ [b]) (by simp; omega) (List.cons_ne_nil c bs)
      rw [List.append_assoc] at hrest
      exact (feed_byte_cons (hbyte.trans (if_neg (by omega)))).trans hrest

/-- `BYTE_IDX` counts the bytes of a phase. -/
theorem toNat_ofNat_byteIdx {n : Nat} (h : n ≤ 4096) : (BitVec.ofNat 13 n).toNat = n := Nat.mod_eq_of_lt (by omega)

theorem ofNat_byteIdx_succ (as : List Byte) (b : Byte) :
    BitVec.ofNat 13 as.length + 1 = BitVec.ofNat 13 (as ++ [b]).length := by
  rw [List.length_append]; exact (BitVec.ofNat_add ..).symm

/-! #### The header (R160) -/

/-- The first bytes of HBUF overwritten. -/
def overlay (as : List Byte) (h : Vector Byte 8) : Vector Byte 8 := Vector.ofFn fun i => as.getD i h[i]

theorem overlay_nil (h : Vector Byte 8) : overlay [] h = h := by
  refine Vector.ext fun i hi => ?_
  simp [overlay]

/-- The byte after those overwritten. -/
theorem overlay_setIfInBounds (as : List Byte) (h : Vector Byte 8) (b : Byte) :
    (overlay as h).setIfInBounds as.length b = overlay (as ++ [b]) h := by
  refine Vector.ext fun i hi => ?_
  simp only [overlay, Vector.getElem_setIfInBounds, Vector.getElem_ofFn, List.getD_eq_getElem?_getD]
  obtain hlt | rfl | hgt := Nat.lt_trichotomy i as.length
  · rw [if_neg (by omega), List.getElem?_append_left hlt]
  · simp
  · rw [if_neg (by omega), List.getElem?_eq_none hgt.le, List.getElem?_eq_none (by simp; omega)]

theorem overlay_toList (as : List Byte) (h : Vector Byte 8) (hn : as.length = 8) : (overlay as h).toList = as := by
  refine List.ext_getElem (by simp [hn]) fun i h1 h2 => ?_
  simp [overlay, h2]

/-- A byte in `RX_HEADER` is stored, and the eighth is followed by the check of the header. -/
theorem execLinkByte_storeHeaderByte (hl : s.lstate = .rxHeader) (hi : s.byteIdx.toNat < 8) :
    exec (.linkByte b) s = if (storeHeaderByte b s).byteIdx.toNat = 8 then rxHeaderDone (storeHeaderByte b s)
      else .next (complete (storeHeaderByte b s)) :=
  (linkEvent_of_rxHeader hl).trans (if_pos hi)

/-- The bytes `as` of the header received. -/
def headerPart (s : State) (as : List Byte) : State :=
  complete { s with hbuf := overlay as s.hbuf, byteIdx := BitVec.ofNat 13 as.length, lstate := .rxHeader }

theorem storeHeaderByte_headerPart (as : List Byte) (b : Byte) (hn : as.length ≤ 4096) :
    storeHeaderByte b (headerPart s as) = headerPart s (as ++ [b]) := by
  have hbuf : (overlay as s.hbuf).setIfInBounds (BitVec.ofNat 13 as.length).toNat b = overlay (as ++ [b]) s.hbuf := by
    rw [toNat_ofNat_byteIdx hn, overlay_setIfInBounds]
  simp only [storeHeaderByte, headerPart, complete, ofNat_byteIdx_succ as b, hbuf]

/-- The header is a phase of eight bytes. -/
theorem isPhase_headerPart (s : State) : IsPhase (headerPart s) 8 rxHeaderDone := by
  intro as b hn
  have hidx {as : List Byte} (hn : as.length ≤ 4096) : (headerPart s as).byteIdx.toNat = as.length :=
    toNat_ofNat_byteIdx hn
  have hlen : (as ++ [b]).length = as.length + 1 := List.length_append
  rw [execLinkByte_storeHeaderByte rfl (by rwa [hidx (by omega)]), storeHeaderByte_headerPart as b (by omega),
    hidx (by omega), hlen]
  rfl

/-! #### The payload (R162) -/

/-- The bytes `as` of the payload received. -/
def payloadPart (s : State) (as : List Byte) : State :=
  complete { s.writeObuf 0 as with byteIdx := BitVec.ofNat 13 as.length, lstate := .rxPayload }

/-- A byte in `RX_PAYLOAD` is stored, and the last is followed by the check of the payload. -/
theorem execLinkByte_storePayloadByte (hl : s.lstate = .rxPayload) (hi : s.byteIdx.toNat + 1 ≤ 4104) :
    exec (.linkByte b) s =
      if (storePayloadByte b s).byteIdx.toNat = s.rlen.toNat then rxFinish (storePayloadByte b s)
      else .next (complete (storePayloadByte b s)) :=
  (linkEvent_of_rxPayload hl).trans (withinBuffer_of_le hi _)

theorem storePayloadByte_payloadPart (as : List Byte) (b : Byte) (hn : as.length ≤ 4096) :
    storePayloadByte b (payloadPart s as) = payloadPart s (as ++ [b]) := by
  have hbuf : (s.obuf.store 0 as).store (BitVec.ofNat 13 as.length).toNat [b] = s.obuf.store 0 (as ++ [b]) := by
    have h := store_append s.obuf 0 as [b]
    rwa [Nat.zero_add, ← toNat_ofNat_byteIdx hn] at h
  simp only [storePayloadByte, payloadPart, complete, State.writeObuf, ofNat_byteIdx_succ as b, hbuf]

/-- The payload is a phase of `RLEN` bytes. -/
theorem isPhase_payloadPart {n : Nat} (hrlen : s.rlen.toNat = n) (hmax : n ≤ 4096) :
    IsPhase (payloadPart s) n rxFinish := by
  intro as b hn
  have hidx {as : List Byte} (hn : as.length ≤ 4096) : (payloadPart s as).byteIdx.toNat = as.length :=
    toNat_ofNat_byteIdx hn
  have hlen : (as ++ [b]).length = as.length + 1 := List.length_append
  have hend : (payloadPart s as).rlen.toNat = n := hrlen
  rw [execLinkByte_storePayloadByte rfl (by rw [hidx (by omega)]; omega),
    storePayloadByte_payloadPart as b (by omega), hidx (by omega), hlen, hend]
  rfl

/-! #### The header acknowledged, and the payload checked (R161, R163) -/

/-- The header of a frame acknowledged. -/
def frameAnnounced (p : List Byte) (q : Half) (s : State) : State :=
  ackHeader (setFields ⟨BitVec.ofNat 16 p.length, q, Config.crc32 p⟩ s)

/-- The payload acknowledged and delivered. -/
def delivered (s : State) : State :=
  complete (linkEnd .rxOk .none 0 0 { emit [Config.ackByte] s with olen := s.rlen })

/-- The header of a frame is acknowledged; without a payload the frame is complete. -/
theorem rxHeaderDone_hdr (hh : s.hbuf.toList = hdr p q) (hp : p.length ≤ 4096) :
    rxHeaderDone s = if p = [] then rxFinish (frameAnnounced p q s)
      else .next (complete { frameAnnounced p q s with lstate := .rxPayload }) := by
  have hlen : ¬ (BitVec.ofNat 16 p.length).toNat > 4096 := by rw [toNat_ofNat_length hp]; omega
  have hzero : BitVec.ofNat 16 p.length = 0 ↔ p = [] := by
    rw [← BitVec.toNat_inj, toNat_ofNat_length hp]
    exact List.length_eq_zero_iff
  simp only [rxHeaderDone, hh, fields_hdr, setFields_rlen, hzero]
  exact if_neg hlen

/-- A payload whose CRC32 is the header's is delivered. -/
theorem rxFinish_of_crc (hlen : s.rlen.toNat = p.length) (hp : p.length ≤ 4096) (hcrc : s.rcrc = Config.crc32 p)
    (hdata : s.memRead .obuf 0 p.length = p) : rxFinish s = .next (delivered s) := by
  rw [rxFinish, withinBuffer_of_le (by rw [hlen]; exact hp.trans (by decide)), hlen, hdata, hcrc]
  exact if_neg (not_not.2 rfl)

/-- The whole header and the whole payload, from the start marker on: two acknowledgements are sent. -/
theorem feed_hdr_payload (s : State) (q : Half) (hp : p.length ≤ 4096) :
    ∃ u, feed ((hdr p q ++ p).map .byte) (startReceived s) = .next (delivered u) ∧ u.rlen.toNat = p.length ∧
      u.memRead .obuf 0 p.length = p ∧ u.rseq = q ∧ u.rcrc = Config.crc32 p ∧
      u.txout = s.txout ++ [Config.ackByte] := by
  set v := frameAnnounced p q (headerPart s (hdr p q))
  have hlen : v.rlen.toNat = p.length := toNat_ofNat_length hp
  have hstart : startReceived s = headerPart s [] := by rw [headerPart, overlay_nil]; rfl
  have hhdr : feed ((hdr p q).map .byte) (startReceived s) =
      if p = [] then rxFinish v else .next (complete { v with lstate := .rxPayload }) := by
    rw [hstart, (isPhase_headerPart s).feed (bs := hdr p q) rfl (List.cons_ne_nil _ _)]
    exact rxHeaderDone_hdr (overlay_toList (hdr p q) s.hbuf rfl) hp
  by_cases hnil : p = []
  · have hdone : rxFinish v = .next (delivered v) := rxFinish_of_crc hlen hp rfl (by rw [hnil]; rfl)
    rw [if_pos hnil, hdone] at hhdr
    refine ⟨v, ?_, hlen, by rw [hnil]; rfl, rfl, rfl, rfl⟩
    rw [hnil, List.append_nil, ← hnil, hhdr]
  · have hpay : complete { v with lstate := .rxPayload } = payloadPart v [] := by
      rw [payloadPart, State.writeObuf, store_zero_nil]; rfl
    have hdata : (payloadPart v p).memRead .obuf 0 p.length = p := memRead_writeObuf v 0 p
    have hdone : rxFinish (payloadPart v p) = .next (delivered (payloadPart v p)) :=
      rxFinish_of_crc hlen hp rfl hdata
    rw [if_neg hnil, hpay] at hhdr
    refine ⟨payloadPart v p, ?_, hlen, hdata, rfl, rfl, rfl⟩
    rw [List.map_append, feed_append_of_next hhdr, (isPhase_payloadPart hlen hp).feed (as := []) (Nat.zero_add _) hnil]
    exact hdone

end

/-- Settles O29: the run and the marker, then the header and the payload phase by phase. -/
theorem cleanReceptionDeliversThePayload : Obligations.CleanReceptionDeliversThePayload := by
  intro s p q hl hp
  obtain ⟨u, hfeed, hlen, hdata, hseq, hcrc, hout⟩ := feed_hdr_payload (runReceived s) q hp
  refine ⟨hunting s, delivered u, execRxStart_of_idle hl, ?_, rfl, rfl, rfl, hlen, ?_, hseq, hcrc, ?_⟩
  · rw [List.append_assoc, List.map_append, feed_append_of_next (feed_preamble s), hfeed]
  · exact (congrArg (u.memRead .obuf 0) hlen).trans hdata
  · show u.txout ++ [Config.ackByte] = _
    rw [hout]
    show s.txout ++ [Config.ackByte] ++ [Config.ackByte] ++ [Config.ackByte] = _
    simp only [List.append_assoc]; rfl

end Sys2Proof.Proofs

/-! ### `CRC32`: each inner step can be undone, and the whole command (R100, R101) -/

namespace Sys2Proof.Proofs

open Sys2Proof Sys2Proof.Machine Sys2Proof.Spec

section

variable {s : State} {w : CmdWord} {op : Byte} {i : Instr}

/-! #### Commands without operands -/

/-- A word that does not decode is illegal (R74, R321). -/
theorem issue_of_decode_error {e : DecodeError} (h : decode w = .error e) :
    issue w s = .next { s with err := .illegal } := by
  rw [issue, h]; rfl

/-- An opcode whose argument is format N has one legal word (R71). -/
theorem formatN_of_decodeFields (h : ∀ arg, decodeFields op arg = formatN op arg i) : FormatN op i := by
  refine ⟨?_, fun arg s harg => issue_of_decode_error (e := .reservedBits op arg) ?_⟩
  · rw [decode_append, h]
    exact if_pos rfl
  · rw [decode_append, h]
    exact if_neg harg

/-! #### The inner steps of R100 undone -/

/-- A word is its bit 0 and the rest. -/
theorem eq_of_getLsbD_zero_of_ushiftRight_one {n : Nat} {c d : BitVec n} (hlow : c.getLsbD 0 = d.getLsbD 0)
    (hrest : c >>> 1 = d >>> 1) : c = d := by
  refine BitVec.eq_of_getLsbD_eq fun j _ => ?_
  cases j with
  | zero => exact hlow
  | succ j =>
    have hbit := congrArg (BitVec.getLsbD · j) hrest
    simpa only [BitVec.getLsbD_ushiftRight, Nat.add_comm 1 j] using hbit

/-- The shift leaves bit 31 clear and the polynomial has it set, so bit 31 tells whether the polynomial was used. -/
theorem crcBit_msb (c : Word) : (Config.crcBit c).msb = c.getLsbD 0 := by
  have hpoly : (0xEDB88320 : Word).msb = true := by decide
  have hshift : (c >>> 1).msb = false := by simp [BitVec.msb_ushiftRight]
  unfold Config.crcBit
  split
  next hlow => rw [BitVec.msb_xor, hshift, hpoly, hlow]; rfl
  next hlow => rw [hshift, eq_false_of_ne_true hlow]

/-- Bit 31 of the result gives bit 0 back; with it known, the shift gives the other bits back. -/
theorem crcBit_injective : Function.Injective Config.crcBit := by
  intro c d h
  have hlow : c.getLsbD 0 = d.getLsbD 0 := by rw [← crcBit_msb, ← crcBit_msb, h]
  refine eq_of_getLsbD_zero_of_ushiftRight_one hlow ?_
  rw [Config.crcBit, Config.crcBit, hlow] at h
  split at h
  next => exact (BitVec.xor_left_inj _).1 h
  next => exact h

theorem crcByte_eq_iterate (c : Word) (b : Byte) : Config.crcByte c b = Config.crcBit^[8] (c ^^^ b.setWidth 32) := rfl

/-- The inner state before a byte is determined by the byte and the inner state after it. -/
theorem crcByte_left_injective (b : Byte) : Function.Injective (Config.crcByte · b) := fun _ _ h =>
  (BitVec.xor_left_inj _).1 (crcBit_injective.iterate 8 h)

/-- The byte is determined by the inner states before and after it. -/
theorem crcByte_right_injective (c : Word) : Function.Injective (Config.crcByte c) := by
  intro x y h
  have hwide : x.setWidth 32 = y.setWidth 32 := (BitVec.xor_right_inj _).1 (crcBit_injective.iterate 8 h)
  have hbyte := congrArg (BitVec.setWidth 8) hwide
  simpa using hbyte

/-- The inner state before a byte string is determined by the string and the inner state after it. -/
theorem crcFold_left_injective (q : List Byte) : Function.Injective (Config.crcFold · q) := by
  induction q with
  | nil => exact Function.injective_id
  | cons b q ih => exact ih.comp (crcByte_left_injective b)

/-- A common suffix makes no CRC32 equal that was not equal before it. -/
theorem crc32_append_eq_iff (p p' q : List Byte) :
    Config.crc32 (p ++ q) = Config.crc32 (p' ++ q) ↔ Config.crc32 p = Config.crc32 p' := by
  simp only [Config.crc32, BitVec.xor_left_inj, crcFold_append]
  exact (crcFold_left_injective q).eq_iff

/-- After the same bytes, the CRC32 determines the one that follows. -/
theorem crc32_concat_eq_iff (p : List Byte) (x y : Byte) :
    Config.crc32 (p ++ [x]) = Config.crc32 (p ++ [y]) ↔ x = y := by
  simp only [Config.crc32, BitVec.xor_left_inj, crcFold_append]
  exact (crcByte_right_injective _).eq_iff

/-! #### The command -/

/-- With the input inside the buffer, `CRC32` in `IDLE` takes the CRC32 of the input (R101). -/
theorem execCrc32_of_idle (hl : s.lstate = .idle) (hn : s.ilen.toNat ≤ Config.bufCap) :
    exec .crc32 s = .next (complete { s with rcrc := Config.crc32 (input s) }) :=
  (whenIdle_of_idle hl _).trans (withinBuffer_of_le hn _)

/-- With `ILEN = 0` the input is the empty string. -/
theorem input_of_ilen_eq_zero (h : s.ilen = 0) : input s = [] := by rw [input, h]; rfl

end

/-- Settles O11: the suffix after the changed byte can be undone, and then the byte itself is determined. -/
theorem crc32DetectsAnyChangedByte : Obligations.Crc32DetectsAnyChangedByte := by
  intro p q x y hxy h
  exact hxy ((crc32_concat_eq_iff p x y).1 ((crc32_append_eq_iff _ _ q).1 h))

/-- Settles O10: the encoding, the busy check, and the CRC32 of the input, which is 0 for the empty input. -/
theorem crc32WritesOnlyRcrc : Obligations.Crc32WritesOnlyRcrc := by
  refine ⟨formatN_of_decodeFields fun _ => rfl, fun _ hl => whenIdle_of_active hl _,
    fun _ hl hn => execCrc32_of_idle hl hn, fun s hl hzero => ?_⟩
  have hn : s.ilen.toNat ≤ Config.bufCap := by rw [hzero]; exact Nat.zero_le _
  rw [execCrc32_of_idle hl hn, input_of_ilen_eq_zero hzero, crc32_nil]
  rfl

end Sys2Proof.Proofs

/-! ### The frame codec commands (R111 to R118)

An equation for each way a command can end, then the round trip from the equations of the ways that succeed. -/

namespace Sys2Proof.Proofs

open Sys2Proof Sys2Proof.Machine Sys2Proof.Spec

section

variable {s : State} {p : List Byte} {q : Half} {op : Byte}

/-! #### Commands whose operand is a sequence number -/

/-- An opcode whose argument is format S has a legal word for each sequence number (R71). -/
theorem formatS_of_decodeFields {i : Half → Instr} (h : ∀ arg, decodeFields op arg = formatS op arg i) :
    FormatS op i := by
  refine ⟨fun q => ?_, fun arg s harg => issue_of_decode_error (e := .reservedBits op arg) ?_⟩
  · rw [decode_append, h, formatS_eq_ok_iff]
    exact ⟨q, rfl, (setWidth_eq_zero_append q).symm⟩
  · rw [decode_append, h]
    exact if_neg harg

/-! #### Parts of a buffer -/

/-- A read in two parts. -/
theorem memRead_add (s : State) (sp : Config.Space) (i m n : Nat) :
    s.memRead sp i (m + n) = s.memRead sp i m ++ s.memRead sp (i + m) n := by
  simp [State.memRead, List.range_add, Function.comp_def, Nat.add_assoc]

/-- A slice of what was read from the start is a read of its own. -/
theorem slice_memRead (s : State) (sp : Config.Space) {i j n : Nat} (hij : i ≤ j) (hjn : j ≤ n) :
    slice (s.memRead sp 0 n) i j = s.memRead sp i (j - i) := by
  refine slice_append (a := s.memRead sp 0 i) (c := s.memRead sp j (n - j)) ?_ (by simp) (by simp; omega)
  have hi : 0 + i = i := Nat.zero_add i
  have hj : 0 + (i + (j - i)) = j := by omega
  calc s.memRead sp 0 n = s.memRead sp 0 (i + (j - i) + (n - j)) := by congr 1; omega
    _ = s.memRead sp 0 i ++ s.memRead sp i (j - i) ++ s.memRead sp j (n - j) := by
      rw [memRead_add, memRead_add, hi, hj]

/-- A write of OBUF that begins where the one before it ended makes the two one write. -/
theorem writeObuf_append (s : State) (i : Nat) (as bs : List Byte) :
    (s.writeObuf i as).writeObuf (i + as.length) bs = s.writeObuf i (as ++ bs) := by
  rw [State.writeObuf, writeObuf_obuf, store_append]; rfl

/-! #### `ENC_HDR` (R111) -/

/-- What `ENC_HDR` leaves when it succeeds: the header in OBUF, without the payload. -/
def headerBuilt (q : Half) (s : State) : State :=
  complete { setEncoded q (s.writeObuf 0 (hdr (input s) q)) with olen := 8 }

theorem execEncHdr_of_gt (q : Half) (hl : s.lstate = .idle) (hn : s.ilen.toNat > 4096) :
    exec (.encHdr q) s = .next (takeError .length s) :=
  (whenIdle_of_idle hl _).trans (congrArg Host.Outcome.next (if_pos hn))

theorem execEncHdr_of_le (q : Half) (hl : s.lstate = .idle) (hn : s.ilen.toNat ≤ 4096) :
    exec (.encHdr q) s = .next (headerBuilt q s) :=
  (whenIdle_of_idle hl _).trans (congrArg Host.Outcome.next (if_neg (not_lt.2 hn)))

/-! #### `DEC_HDR` (R113, R114) -/

theorem execDecHdr_of_lt (hl : s.lstate = .idle) (hn : s.ilen.toNat < 8) :
    exec .decHdr s = .next (takeError .short s) :=
  (whenIdle_of_idle hl _).trans (congrArg Host.Outcome.next (if_pos hn))

theorem execDecHdr_of_gt (hl : s.lstate = .idle) (hn : 8 < s.ilen.toNat) :
    exec .decHdr s = .next (takeError .format s) := by
  refine (whenIdle_of_idle hl _).trans (congrArg Host.Outcome.next ?_)
  exact (if_neg (not_lt.2 hn.le)).trans (if_pos hn)

theorem execDecHdr_of_eq (hl : s.lstate = .idle) (hn : s.ilen.toNat = 8) :
    exec .decHdr s = .next (complete (setFields (inputHeader s) s)) := by
  refine (whenIdle_of_idle hl _).trans (congrArg Host.Outcome.next ?_)
  exact (if_neg (not_lt.2 hn.ge)).trans (if_neg (not_lt.2 hn.le))

/-- A little-endian number is not cut by a width that holds all its bytes. -/
theorem toNat_ofNat_fromLe {w : Nat} {bs : List Byte} (h : 8 * bs.length ≤ w) :
    (BitVec.ofNat w (fromLe bs)).toNat = fromLe bs := by
  refine (BitVec.toNat_ofNat ..).trans (Nat.mod_eq_of_lt ?_)
  calc fromLe bs < 256 ^ bs.length := fromLe_lt bs
    _ = 2 ^ (8 * bs.length) := (Nat.pow_mul 2 8 bs.length).symm
    _ ≤ 2 ^ w := Nat.pow_le_pow_right (by decide) h

/-- The header in IBUF, its fields as sums of their bytes (R14, R78). -/
theorem inputHeader_toNat (s : State) :
    (inputHeader s).length.toNat = (s.byteAt .ibuf 0).toNat + 256 * (s.byteAt .ibuf 1).toNat ∧
    (inputHeader s).sequence.toNat = (s.byteAt .ibuf 2).toNat + 256 * (s.byteAt .ibuf 3).toNat ∧
    (inputHeader s).crc.toNat = (s.byteAt .ibuf 4).toNat + 256 * (s.byteAt .ibuf 5).toNat
      + 65536 * (s.byteAt .ibuf 6).toNat + 16777216 * (s.byteAt .ibuf 7).toNat := by
  have htwo (i : Nat) : fromLe (s.memRead .ibuf i 2) =
      (s.byteAt .ibuf i).toNat + 256 * (s.byteAt .ibuf (i + 1)).toNat := rfl
  have hcrc : fromLe (s.memRead .ibuf 4 4) = (s.byteAt .ibuf 4).toNat + 256 * ((s.byteAt .ibuf 5).toNat
      + 256 * ((s.byteAt .ibuf 6).toNat + 256 * (s.byteAt .ibuf 7).toNat)) := rfl
  refine ⟨?_, ?_, ?_⟩
  all_goals
    refine (toNat_ofNat_fromLe (by simp)).trans ?_
    rw [slice_memRead s .ibuf (by decide) (by decide)]
  · exact htwo 0
  · exact htwo 2
  · rw [hcrc]; omega

/-! #### `FRM_ENC` (R115) -/

/-- What `FRM_ENC` leaves when it succeeds: the header and the payload in OBUF, as one string. -/
def frameBuilt (q : Half) (s : State) : State :=
  complete { setEncoded q (s.writeObuf 0 (hdr (input s) q ++ input s)) with
    olen := BitVec.ofNat 16 (8 + s.ilen.toNat) }

theorem execFrmEnc_of_gt (q : Half) (hl : s.lstate = .idle) (hn : s.ilen.toNat > 4096) :
    exec (.frmEnc q) s = .next (takeError .length s) :=
  (whenIdle_of_idle hl _).trans (congrArg Host.Outcome.next (if_pos hn))

theorem execFrmEnc_of_le (q : Half) (hl : s.lstate = .idle) (hn : s.ilen.toNat ≤ 4096) :
    exec (.frmEnc q) s = .next (frameBuilt q s) := by
  refine (whenIdle_of_idle hl _).trans (congrArg Host.Outcome.next ((if_neg (not_lt.2 hn)).trans ?_))
  rw [frameBuilt, ← writeObuf_append]; rfl

theorem frameBuilt_olen (hn : s.ilen.toNat ≤ 4096) : (frameBuilt q s).olen.toNat = 8 + s.ilen.toNat :=
  Nat.mod_eq_of_lt (by omega)

/-- Reading OBUF back gives the whole frame. -/
theorem memRead_frameBuilt (hn : s.ilen.toNat ≤ 4096) :
    (frameBuilt q s).memRead .obuf 0 (frameBuilt q s).olen.toNat = hdr (input s) q ++ input s := by
  have hlen : (frameBuilt q s).olen.toNat = (hdr (input s) q ++ input s).length := by
    rw [frameBuilt_olen hn, List.length_append, hdr_length, input_length]
  rw [hlen]
  exact memRead_writeObuf s 0 _

/-! #### `FRM_DEC`: one equation per check, in the order of R117 -/

/-- What `FRM_DEC` leaves when it succeeds: the payload in OBUF and the header's fields in the result registers. -/
def payloadDelivered (s : State) : State :=
  complete
    { setFields (inputHeader s) (s.writeObuf 0 (s.memRead .ibuf 8 (inputHeader s).length.toNat)) with
      olen := (inputHeader s).length }

/-- The CRC32 of the payload that the header in IBUF declares (R117). -/
def payloadCrc (s : State) : Word := Config.crc32 (s.memRead .ibuf 8 (inputHeader s).length.toNat)

/-- `FRM_DEC` in `IDLE`, its checks with the lengths of the whole frame. -/
theorem execFrmDec_of_idle (hl : s.lstate = .idle) : exec .frmDec s = .next (
    if s.ilen.toNat < 8 then takeError .short s
    else if 4096 < (inputHeader s).length.toNat then takeError .length s
    else if s.ilen.toNat - 8 < (inputHeader s).length.toNat then takeError .short s
    else if (inputHeader s).length.toNat < s.ilen.toNat - 8 then takeError .format s
    else if payloadCrc s ≠ (inputHeader s).crc then takeError .crc s
    else payloadDelivered s) := whenIdle_of_idle hl _

/-- A frame that passes the five checks is delivered. -/
theorem execFrmDec_of_valid (hl : s.lstate = .idle) (hle : (inputHeader s).length.toNat ≤ 4096)
    (hn : s.ilen.toNat = 8 + (inputHeader s).length.toNat) (hcrc : payloadCrc s = (inputHeader s).crc) :
    exec .frmDec s = .next (payloadDelivered s) := by
  rw [execFrmDec_of_idle hl, if_neg (by omega), if_neg (by omega), if_neg (by omega), if_neg (by omega),
    if_neg (not_not.2 hcrc)]

/-! #### A frame as the input (R116) -/

/-- The two parts of a frame stand in IBUF where `FRM_DEC` reads them. -/
theorem memRead_of_input_eq_frame (h : input s = hdr p q ++ p) :
    s.memRead .ibuf 0 8 = hdr p q ∧ s.memRead .ibuf 8 p.length = p := by
  have hlen : s.ilen.toNat = 8 + p.length := by
    rw [← input_length, h, List.length_append, hdr_length]
  rw [input, hlen, memRead_add] at h
  exact List.append_inj h (by rw [memRead_length, hdr_length])

/-- What `FRM_DEC` leaves when the input is the frame of the payload `p` and the sequence number `q`. -/
def frameAccepted (p : List Byte) (q : Half) (s : State) : State :=
  complete
    { setFields ⟨BitVec.ofNat 16 p.length, q, Config.crc32 p⟩ (s.writeObuf 0 p) with
      olen := BitVec.ofNat 16 p.length }

/-- A built frame passes the five checks, because its header and its payload come apart again. -/
theorem execFrmDec_of_input_eq_frame (hl : s.lstate = .idle) (hp : p.length ≤ 4096) (h : input s = hdr p q ++ p) :
    exec .frmDec s = .next (frameAccepted p q s) := by
  obtain ⟨hhdr, hdata⟩ := memRead_of_input_eq_frame h
  have hf : inputHeader s = ⟨BitVec.ofNat 16 p.length, q, Config.crc32 p⟩ := by
    rw [inputHeader, hhdr, fields_hdr]
  have hlen : (inputHeader s).length.toNat = p.length := by rw [hf]; exact toNat_ofNat_length hp
  have hn : s.ilen.toNat = 8 + p.length := by rw [← input_length, h, List.length_append, hdr_length]
  have hcrc : payloadCrc s = (inputHeader s).crc := by rw [payloadCrc, hlen, hdata, hf]
  rw [execFrmDec_of_valid hl (hlen.trans_le hp) (by rw [hn, hlen]) hcrc, payloadDelivered, hlen, hdata, hf]; rfl

end

/-- Settles O13: the encoding, the busy check, the length check and the header alone in OBUF. -/
theorem encHdrBuildsTheHeader : Obligations.EncHdrBuildsTheHeader :=
  ⟨formatS_of_decodeFields fun _ => rfl, fun _ _ hl => whenIdle_of_active hl _,
    fun q _ hl hn => execEncHdr_of_gt q hl hn,
    fun q s hl hn => ⟨headerBuilt q s, execEncHdr_of_le q hl hn, rfl, byteAt_writeObuf_obuf s 0 (hdr (input s) q)⟩⟩

/-- Settles O14: the encoding, the busy check, and the input below, above and at eight bytes. -/
theorem decHdrTakesExactlyEightBytes : Obligations.DecHdrTakesExactlyEightBytes :=
  ⟨formatN_of_decodeFields fun _ => rfl, fun _ hl => whenIdle_of_active hl _,
    fun _ hl hn => execDecHdr_of_lt hl hn, fun _ hl hn => execDecHdr_of_gt hl hn,
    fun s hl hn => ⟨_, execDecHdr_of_eq hl hn, rfl, inputHeader_toNat s⟩⟩

/-- Settles O15: the encoding, the busy check, the length check, and the header and the payload as one string. -/
theorem frmEncBuildsTheFrame : Obligations.FrmEncBuildsTheFrame :=
  ⟨formatS_of_decodeFields fun _ => rfl, fun _ _ hl => whenIdle_of_active hl _,
    fun q _ hl hn => execFrmEnc_of_gt q hl hn,
    fun q s hl hn => ⟨frameBuilt q s, execFrmEnc_of_le q hl hn, rfl, frameBuilt_olen hn,
      byteAt_writeObuf_obuf s 0 (hdr (input s) q ++ input s)⟩⟩

/-- Settles O16: each clause takes the branch of one check, the checks before it passed. -/
theorem frmDecValidatesInOrder : Obligations.FrmDecValidatesInOrder := by
  refine ⟨formatN_of_decodeFields fun _ => rfl, fun _ hl => whenIdle_of_active hl _, fun s hl hn => ?_,
    fun s f hl h8 hf => ?_⟩
  · rw [execFrmDec_of_idle hl, if_pos hn]; rfl
  · obtain rfl : f = inputHeader s := hf
    have hexec := execFrmDec_of_idle hl
    rw [if_neg (not_lt.2 h8)] at hexec
    refine ⟨fun hlong => ?oversized, fun hle hshort => ?short, fun hle htrail => ?trailing, fun hle hn hcrc => ?crc,
      fun hle hn hcrc => ⟨payloadDelivered s, execFrmDec_of_valid hl hle hn hcrc, rfl, byteAt_writeObuf_obuf s 0 _⟩⟩
    case oversized => rw [hexec, if_pos hlong]; rfl
    case short => rw [hexec, if_neg (not_lt.2 hle), if_pos (by omega)]; rfl
    case trailing => rw [hexec, if_neg (not_lt.2 hle), if_neg (by omega), if_pos (by omega)]; rfl
    case crc =>
      have hne : payloadCrc s ≠ (inputHeader s).crc := hcrc
      rw [hexec, if_neg (not_lt.2 hle), if_neg (by omega), if_neg (by omega), if_pos hne]; rfl

/-- Settles O17: what `FRM_ENC` leaves in OBUF is the header and the payload, and this string is the input of
`FRM_DEC`. -/
theorem frameRoundTrip : Obligations.FrameRoundTrip := by
  intro s p q hl hp
  set a := loadInput p s
  set b := frameBuilt q a
  set c := loadInput (hdr p q ++ p) b
  have hn : a.ilen.toNat ≤ 4096 := by rwa [loadInput_ilen (by omega)]
  have hsize : (hdr p q ++ p).length ≤ 4104 := by rw [List.length_append, hdr_length]; omega
  have hframe : b.memRead .obuf 0 b.olen.toNat = hdr p q ++ p := by
    rw [memRead_frameBuilt hn, input_loadInput (by omega)]
  have hreload : hostLoad (b.memRead .obuf 0 b.olen.toNat) b = .next c := by
    rw [hframe]; exact hostLoad_of_idle hl hsize
  have hdec : exec .frmDec c = .next (frameAccepted p q c) :=
    execFrmDec_of_input_eq_frame hl hp (input_loadInput hsize)
  have holen : (frameAccepted p q c).olen.toNat = p.length := toNat_ofNat_length hp
  refine ⟨a, b, c, frameAccepted p q c, hostLoad_of_idle hl (by omega), execFrmEnc_of_le q hl hn, hreload, hdec,
    rfl, rfl, ?payload, holen, rfl, rfl⟩
  case payload =>
    rw [holen]
    exact memRead_writeObuf c 0 p

end Sys2Proof.Proofs

/-! ### The transmit sequencer (R131, R132, R135, R139)

The acknowledged rows of R135's table are equations of the clean run above; here is one for each unacknowledged row,
and then how many link events a transmission can still wait for. -/

namespace Sys2Proof.Proofs

open Sys2Proof Sys2Proof.Machine Sys2Proof.Spec

section

variable {s t u : State} {ev : LinkEvent} {n : Nat}

/-! #### `TX_START` on an input that no frame can carry (R131) -/

theorem execTxStart_of_gt (q : Half) (hl : s.lstate = .idle) (hn : s.ilen.toNat > 4096) :
    exec (.txStart q) s = .next (takeError .length s) :=
  (whenIdle_of_idle hl _).trans (congrArg Host.Outcome.next (if_pos hn))

/-! #### The events that do not acknowledge (R132, R135) -/

theorem exec_eventInstr (ev : LinkEvent) (s : State) : exec (eventInstr ev) s = linkEvent ev s := by
  cases ev <;> rfl

/-- Every event but the byte 0x21 is unacknowledged (R132). -/
theorem isAck_of_ne (h : ev ≠ .byte 0x21) : ¬ isAck ev = true := by
  cases ev with
  | byte b => exact fun hack => h (congrArg LinkEvent.byte ((isAck_byte b).1 hack))
  | timeout => exact Bool.false_ne_true

/-- The sync run sent once more (R135). -/
def syncResent (s : State) : State := complete (emit (syncBytes s) { s with txTries := s.txTries + 1 })

theorem txSyncAck_resend (hl : s.lstate = .txWaitSyncAck) (ha : ev ≠ .byte 0x21) (hc : s.txTries.toNat < 3) :
    exec (eventInstr ev) s = .next (syncResent s) := by
  rw [exec_eventInstr, linkEvent_of_txWaitSyncAck hl]
  exact (if_neg (isAck_of_ne ha)).trans (if_pos hc)

theorem txSyncAck_fail (hl : s.lstate = .txWaitSyncAck) (ha : ev ≠ .byte 0x21) (hc : s.txTries.toNat = 3) :
    exec (eventInstr ev) s = .next (complete (linkEnd .txFail .syncUnacked 3 3 s)) := by
  rw [exec_eventInstr, linkEvent_of_txWaitSyncAck hl]
  exact (if_neg (isAck_of_ne ha)).trans (if_neg (not_lt.2 hc.ge))

theorem txHdrAck_fail (hl : s.lstate = .txWaitHdrAck) (ha : ev ≠ .byte 0x21) :
    exec (eventInstr ev) s = .next (complete (linkEnd .txFail .headerUnacked 0 0 s)) := by
  rw [exec_eventInstr, linkEvent_of_txWaitHdrAck hl]
  exact if_neg (isAck_of_ne ha)

theorem txPayAck_fail (hl : s.lstate = .txWaitPayAck) (ha : ev ≠ .byte 0x21) :
    exec (eventInstr ev) s = .next (complete (linkEnd .txFail .payloadUnacked 0 0 s)) := by
  rw [exec_eventInstr, linkEvent_of_txWaitPayAck hl]
  exact if_neg (isAck_of_ne ha)

/-! #### How long a transmission can wait (R139) -/

/-- The transmission is over, delivered or failed. -/
def TxEnded (s : State) : Prop := s.lstate = .idle ∧ (s.lresult = .txOk ∨ s.lresult = .txFail)

/-- Whatever the channel delivers, the transmission is over after at most `n` more link events. -/
def EndsWithin : Nat → State → Prop
  | 0, s => TxEnded s
  | n + 1, s => TxEnded s ∨ ∀ ev, ∃ t, exec (eventInstr ev) s = .next t ∧ EndsWithin n t

theorem TxEnded.endsWithin (h : TxEnded s) (n : Nat) : EndsWithin n s := by
  cases n with
  | zero => exact h
  | succ n => exact .inl h

/-- A failed link activity is an ended transmission. -/
theorem txEnded_fail (cause : LCause) (exp act : Word) (s : State) :
    TxEnded (complete (linkEnd .txFail cause exp act s)) := ⟨rfl, .inr rfl⟩

/-- A wait of the transmit states asks only whether the event acknowledges (R132). -/
theorem endsWithin_succ_of_ack (hack : exec (.linkByte 0x21) s = .next t) (ht : EndsWithin n t)
    (hother : ∀ ev, ev ≠ .byte 0x21 → exec (eventInstr ev) s = .next u) (hu : EndsWithin n u) :
    EndsWithin (n + 1) s := by
  refine .inr fun ev => ?_
  by_cases ha : ev = .byte 0x21
  · subst ha; exact ⟨t, hack, ht⟩
  · exact ⟨u, hother ev ha, hu⟩

/-- The bound counts the events of every list that is long enough. -/
theorem EndsWithin.feed_take {evs : List LinkEvent} (h : EndsWithin n s) (hn : n ≤ evs.length) :
    ∃ k ≤ n, ∃ t, feed (evs.take k) s = .next t ∧ TxEnded t := by
  induction n generalizing s evs with
  | zero => exact ⟨0, le_rfl, s, rfl, h⟩
  | succ n ih =>
    rcases h with hended | hstep
    · exact ⟨0, Nat.zero_le _, s, rfl, hended⟩
    · cases evs with
      | nil => exact absurd hn (Nat.not_succ_le_zero n)
      | cons ev evs =>
        obtain ⟨u, hev, hu⟩ := hstep ev
        obtain ⟨k, hk, t, hfeed, hended⟩ := ih hu (Nat.le_of_succ_le_succ hn)
        refine ⟨k + 1, Nat.succ_le_succ hk, t, ?_, hended⟩
        rw [List.take_succ_cons, feed, hev]
        exact hfeed

theorem endsWithin_of_txWaitPayAck (hl : s.lstate = .txWaitPayAck) (n : Nat) : EndsWithin (n + 1) s := by
  have hok : TxEnded (complete (linkEnd .txOk .none 0 0 s)) := ⟨rfl, .inl rfl⟩
  exact endsWithin_succ_of_ack (txPayAck_ack hl) (hok.endsWithin n) (fun _ => txPayAck_fail hl)
    ((txEnded_fail ..).endsWithin n)

theorem endsWithin_of_txWaitHdrAck (hl : s.lstate = .txWaitHdrAck) (hi : s.ilen.toNat ≤ 4104) (n : Nat) :
    EndsWithin (n + 2) s :=
  endsWithin_succ_of_ack (txHdrAck_ack hl hi) (endsWithin_of_txWaitPayAck rfl n) (fun _ => txHdrAck_fail hl)
    ((txEnded_fail ..).endsWithin (n + 1))

/-- With `r` sync runs still to send there are `r + 1` sync waits, one header wait and one payload wait (R136,
R139). -/
theorem endsWithin_of_txWaitSyncAck (r : Nat) (hl : s.lstate = .txWaitSyncAck) (hi : s.ilen.toNat ≤ 4104)
    (hr : s.txTries.toNat + r = 3) : EndsWithin (r + 3) s := by
  induction r generalizing s with
  | zero =>
    exact endsWithin_succ_of_ack (txSyncAck_ack hl) (endsWithin_of_txWaitHdrAck (s := headerSent s) rfl hi 0)
      (fun _ ha => txSyncAck_fail hl ha hr) ((txEnded_fail ..).endsWithin 2)
  | succ r ih =>
    have hc : s.txTries.toNat < 3 := by omega
    have hresent : (s.txTries + 1).toNat + r = 3 := by bv_omega
    have hrest : EndsWithin (r + 3) (syncResent s) := ih hl hi hresent
    have hhdr : EndsWithin (r + 3) (headerSent s) :=
      endsWithin_of_txWaitHdrAck (s := headerSent s) rfl hi (r + 1)
    exact endsWithin_succ_of_ack (txSyncAck_ack hl) hhdr (fun _ ha => txSyncAck_resend hl ha hc) hrest

end

/-- Settles O18: the encoding, the busy check, the length check, and the header latched with the sync run sent. -/
theorem txStartLatchesAndSendsSync : Obligations.TxStartLatchesAndSendsSync :=
  ⟨formatS_of_decodeFields fun _ => rfl, fun _ _ hl => whenIdle_of_active hl _,
    fun q _ hl hn => execTxStart_of_gt q hl hn,
    fun q s hl hn => ⟨syncSent q s, execTxStart_of_le q hl hn, rfl, latch_hdr_toList (input s) q⟩⟩

/-- Settles O19: each row is the equation of its state, for the acknowledgement and for every other event. -/
theorem transmitTransitionTable : Obligations.TransmitTransitionTable :=
  ⟨fun _ hl => txSyncAck_ack hl,
    fun _ _ ha hl hc => txSyncAck_resend hl ha hc,
    fun _ _ ha hl hc => txSyncAck_fail hl ha hc,
    fun _ hl hi => txHdrAck_ack hl hi,
    fun _ _ ha hl => txHdrAck_fail hl ha,
    fun _ hl => txPayAck_ack hl,
    fun _ _ ha hl => txPayAck_fail hl ha⟩

/-- Settles O21: `TX_START` has sent one sync run and can send two more: three sync waits, one header wait, one
payload wait. -/
theorem transmissionEndsWithinFiveEvents : Obligations.TransmissionEndsWithinFiveEvents := by
  intro s q evs hl hn hlen
  have hi : (syncSent q s).ilen.toNat ≤ 4104 := hn.trans (by decide)
  have hends : EndsWithin 5 (syncSent q s) := endsWithin_of_txWaitSyncAck 2 rfl hi rfl
  exact ⟨syncSent q s, execTxStart_of_le q hl hn, hends.feed_take hlen.ge⟩

end Sys2Proof.Proofs

/-! ### The receive parser (R151 to R166)

The clean run above has an equation for each transition that it takes; here is one for each other row of the receive
states. Then what a reception can still emit: every event spends the acknowledgements it sends. -/

namespace Sys2Proof.Proofs

open Sys2Proof Sys2Proof.Machine Sys2Proof.Spec Sys2Proof.Safety

section

variable {s t : State} {ev : LinkEvent} {b : Byte} {p : List Byte}

/-- In `IDLE` no link event is expected (R153). -/
theorem event_of_idle (hl : s.lstate = .idle) : exec (eventInstr ev) s = .next (takeError .state s) := by
  rw [exec_eventInstr]
  simp only [linkEvent, hl]

/-! #### `RX_HUNT` and `RX_WAIT_START` (R156, R158) -/

theorem rxHunt_other (hl : s.lstate = .rxHunt) (hb : b ≠ s.params.syncByte) :
    exec (.linkByte b) s = .next (complete { s with syncCnt := 0 }) := (linkEvent_of_rxHunt hl).trans (if_neg hb)

theorem rxHunt_timeout (hl : s.lstate = .rxHunt) :
    exec .linkTimeout s = .next (complete (linkEnd .rxNone .noData 0 0 s)) := linkEvent_of_rxHunt (ev := .timeout) hl

/-- The third sync byte leaves `SYNC_CNT` at the length of the run. -/
theorem runAcked_of_syncCnt (hc : s.syncCnt = 2) :
    runAcked s = { s with syncCnt := 3, missCnt := 0, lstate := .rxWaitStart, txout := s.txout ++ [0x21],
                          err := .ok } := by
  rw [runAcked, hc]; rfl

theorem rxWaitStart_miss (hl : s.lstate = .rxWaitStart) (hb : b ≠ 0x40) (hc : s.missCnt ≠ 9) :
    exec (.linkByte b) s = .next (complete { s with missCnt := s.missCnt + 1 }) :=
  (linkEvent_of_rxWaitStart hl).trans <| (if_neg hb).trans <| if_neg (mt (succ_eq_startSearchLimit_iff _).1 hc)

theorem rxWaitStart_limit (hl : s.lstate = .rxWaitStart) (hb : b ≠ 0x40) (hc : s.missCnt = 9) :
    exec (.linkByte b) s =
      .next (complete (linkEnd .rxNone .startNotFound 1 10 { s with missCnt := s.missCnt + 1 })) :=
  (linkEvent_of_rxWaitStart hl).trans <| (if_neg hb).trans <| if_pos ((succ_eq_startSearchLimit_iff _).2 hc)

theorem rxWaitStart_timeout (hl : s.lstate = .rxWaitStart) :
    exec .linkTimeout s = .next (complete (linkEnd .rxNone .startTimeout 1 0 s)) :=
  linkEvent_of_rxWaitStart (ev := .timeout) hl

/-! #### How `rx_finish()` ends (R163) -/

theorem delivered_eq (s : State) : delivered s =
    { s with olen := s.rlen, txout := s.txout ++ [0x21], lstate := .idle, lresult := .rxOk, lcause := .none, lexp := 0,
             lact := 0, err := .ok } := rfl

/-- The payload refused: its CRC32 is `c`, not the header's. -/
def mismatched (c : Word) (s : State) : State := complete (linkEnd .rxNone .crcMismatch s.rcrc c s)

theorem mismatched_eq (c : Word) (s : State) : mismatched c s =
    { s with lstate := .idle, lresult := .rxNone, lcause := .crcMismatch, lexp := s.rcrc, lact := c,
             err := .ok } := rfl

theorem rxFinish_of_crc_ne (hlen : s.rlen.toNat = p.length) (hp : p.length ≤ 4096) (hcrc : Config.crc32 p ≠ s.rcrc)
    (hdata : s.memRead .obuf 0 p.length = p) : rxFinish s = .next (mismatched (Config.crc32 p) s) := by
  rw [rxFinish, withinBuffer_of_le (by rw [hlen]; exact hp.trans (by decide)), hlen, hdata]
  exact if_pos hcrc

/-! #### `RX_HEADER` (R160, R161) -/

theorem rxHeader_byte (hl : s.lstate = .rxHeader) (hi : s.byteIdx.toNat < 7) :
    exec (.linkByte b) s = .next (complete (storeHeaderByte b s)) := by
  have hidx : (storeHeaderByte b s).byteIdx.toNat = s.byteIdx.toNat + 1 := byteIdx_succ_toNat (by omega)
  exact (execLinkByte_storeHeaderByte hl (by omega)).trans (if_neg (by omega))

theorem rxHeader_lastByte (hl : s.lstate = .rxHeader) (hi : s.byteIdx.toNat = 7) :
    exec (.linkByte b) s = rxHeaderDone (storeHeaderByte b s) := by
  have hidx : (storeHeaderByte b s).byteIdx.toNat = s.byteIdx.toNat + 1 := byteIdx_succ_toNat (by omega)
  exact (execLinkByte_storeHeaderByte hl (by omega)).trans (if_pos (by omega))

/-- The header with its last byte, taken apart. -/
theorem takeHeader_storeHeaderByte {h : Vector Byte 8} {f : HdrFields}
    (hh : h = s.hbuf.setIfInBounds s.byteIdx.toNat b) (hf : f = fields h.toList) :
    takeHeader (storeHeaderByte b s) =
      { s with hbuf := h, byteIdx := s.byteIdx + 1, rlen := f.length, rseq := f.sequence, rcrc := f.crc } := by
  subst hh hf; rfl

theorem rxHeaderDone_of_gt (hn : 4096 < (takeHeader s).rlen.toNat) :
    rxHeaderDone s =
      .next (complete (linkEnd .rxNone .oversize 4096 ((takeHeader s).rlen.setWidth 32) (takeHeader s))) :=
  if_pos hn

theorem rxHeaderDone_of_zero (hz : (takeHeader s).rlen = 0) :
    rxHeaderDone s = rxFinish (ackHeader (takeHeader s)) :=
  (if_neg (by rw [show (setFields (fields s.hbuf.toList) s).rlen = 0 from hz]; decide)).trans (if_pos hz)

theorem rxHeaderDone_of_le (hpos : 1 ≤ (takeHeader s).rlen.toNat) (hn : (takeHeader s).rlen.toNat ≤ 4096) :
    rxHeaderDone s = .next (complete { ackHeader (takeHeader s) with lstate := .rxPayload }) := by
  have hz : (takeHeader s).rlen ≠ 0 := fun h => by simp [h] at hpos
  exact (if_neg (not_lt.2 hn)).trans (if_neg hz)

theorem rxHeader_timeout (hl : s.lstate = .rxHeader) :
    exec .linkTimeout s = .next (complete (linkEnd .rxNone .headerShort 8 (s.byteIdx.setWidth 32) s)) :=
  linkEvent_of_rxHeader (ev := .timeout) hl

/-- An empty payload is delivered when the header's CRC32 is that of the empty string, with a second
acknowledgement. -/
theorem rxFinish_ackHeader_of_zero (hz : s.rlen = 0) (hc : s.rcrc = 0) : rxFinish (ackHeader s) =
    .next { s with byteIdx := 0, rlen := 0, rcrc := 0, olen := 0, txout := s.txout ++ [0x21, 0x21], lstate := .idle,
                   lresult := .rxOk, lcause := .none, lexp := 0, lact := 0, err := .ok } := by
  rw [rxFinish_of_crc (s := ackHeader s) (p := []) (congrArg BitVec.toNat hz) (Nat.zero_le _) hc rfl]
  simp [delivered_eq, ackHeader, emit, Config.ackByte, hz, hc]

theorem rxFinish_ackHeader_of_ne (hz : s.rlen = 0) (hc : s.rcrc ≠ 0) : rxFinish (ackHeader s) =
    .next { s with byteIdx := 0, rlen := 0, txout := s.txout ++ [0x21], lstate := .idle, lresult := .rxNone,
                   lcause := .crcMismatch, lexp := s.rcrc, lact := 0, err := .ok } := by
  rw [rxFinish_of_crc_ne (s := ackHeader s) (p := []) (congrArg BitVec.toNat hz) (Nat.zero_le _) hc.symm rfl]
  simp [mismatched_eq, ackHeader, emit, Config.ackByte, hz]

/-! #### `RX_PAYLOAD` (R162) -/

theorem rxPayload_byte (hl : s.lstate = .rxPayload) (hi : s.byteIdx.toNat + 1 < s.rlen.toNat)
    (hn : s.rlen.toNat ≤ 4096) : exec (.linkByte b) s = .next (complete (storePayloadByte b s)) := by
  have hidx : (storePayloadByte b s).byteIdx.toNat = s.byteIdx.toNat + 1 := byteIdx_succ_toNat (by omega)
  exact (execLinkByte_storePayloadByte hl (by omega)).trans (if_neg (by omega))

theorem rxPayload_lastByte (hl : s.lstate = .rxPayload) (hi : s.byteIdx.toNat + 1 = s.rlen.toNat)
    (hn : s.rlen.toNat ≤ 4096) : exec (.linkByte b) s = rxFinish (storePayloadByte b s) := by
  have hidx : (storePayloadByte b s).byteIdx.toNat = s.byteIdx.toNat + 1 := byteIdx_succ_toNat (by omega)
  exact (execLinkByte_storePayloadByte hl (by omega)).trans (if_pos (by omega))

theorem rxPayload_timeout (hl : s.lstate = .rxPayload) :
    exec .linkTimeout s =
      .next (complete (linkEnd .rxNone .payloadShort (s.rlen.setWidth 32) (s.byteIdx.setWidth 32) s)) :=
  linkEvent_of_rxPayload (ev := .timeout) hl

/-- A state whose OBUF is another's with one store reads so, byte by byte. -/
theorem obufStored_of_obuf_eq {i : Nat} {bs : List Byte} (h : t.obuf = s.obuf.store i bs) (he : t.epoch = s.epoch) :
    ObufStored s t i bs := by
  intro a
  have hread : t.byteAt .obuf a = (s.writeObuf i bs).byteAt .obuf a := byteAt_congr (congrArg (Memory.read · a) h) he
  exact hread.trans (byteAt_writeObuf_obuf s i bs a)

/-- OBUF up to and with the byte received. -/
theorem memRead_storePayloadByte (b : Byte) (s : State) :
    (storePayloadByte b s).memRead .obuf 0 (s.byteIdx.toNat + 1) = s.memRead .obuf 0 s.byteIdx.toNat ++ [b] := by
  have hbyte (a : Nat) : (storePayloadByte b s).byteAt .obuf a =
      if s.byteIdx.toNat ≤ a ∧ a < s.byteIdx.toNat + 1 then [b].getD (a - s.byteIdx.toNat) 0
      else s.byteAt .obuf a := byteAt_writeObuf_obuf s _ [b] a
  have hbefore : (storePayloadByte b s).memRead .obuf 0 s.byteIdx.toNat = s.memRead .obuf 0 s.byteIdx.toNat :=
    memRead_congr fun a _ ha => by rw [hbyte, if_neg (by omega)]
  have hlast : (storePayloadByte b s).byteAt .obuf (0 + s.byteIdx.toNat) = b := by
    rw [Nat.zero_add, hbyte, if_pos (by omega), Nat.sub_self]; rfl
  rw [memRead_succ, hbefore, hlast]

/-! #### No link event faults (R326) -/

theorem rxFinish_goes_on (hn : s.rlen.toNat ≤ 4096) : ∃ t, rxFinish s = .next t := by
  set p := s.memRead .obuf 0 s.rlen.toNat with hp
  have hlen : s.rlen.toNat = p.length := (memRead_length ..).symm
  have hdata : s.memRead .obuf 0 p.length = p := by rw [← hlen]
  by_cases hcrc : s.rcrc = Config.crc32 p
  · exact ⟨_, rxFinish_of_crc hlen (hlen ▸ hn) hcrc hdata⟩
  · exact ⟨_, rxFinish_of_crc_ne hlen (hlen ▸ hn) (Ne.symm hcrc) hdata⟩

theorem rxHeaderDone_goes_on (s : State) : ∃ t, rxHeaderDone s = .next t := by
  by_cases hgt : 4096 < (takeHeader s).rlen.toNat
  · exact ⟨_, rxHeaderDone_of_gt hgt⟩
  by_cases hz : (takeHeader s).rlen = 0
  · have hn : (ackHeader (takeHeader s)).rlen.toNat ≤ 4096 := not_lt.1 hgt
    rw [rxHeaderDone_of_zero hz]
    exact rxFinish_goes_on hn
  · exact ⟨_, rxHeaderDone_of_le (BitVec.toNat_pos_of_ne_zero hz) (not_lt.1 hgt)⟩

theorem rxHunt_goes_on (ev : LinkEvent) (hl : s.lstate = .rxHunt) : ∃ t, exec (eventInstr ev) s = .next t := by
  cases ev with
  | timeout => exact ⟨_, rxHunt_timeout hl⟩
  | byte b =>
    by_cases hb : b = s.params.syncByte
    · by_cases hc : s.syncCnt = 2
      · exact ⟨_, rxHunt_run hl hb hc⟩
      · exact ⟨_, rxHunt_sync hl hb hc⟩
    · exact ⟨_, rxHunt_other hl hb⟩

theorem rxWaitStart_goes_on (ev : LinkEvent) (hl : s.lstate = .rxWaitStart) :
    ∃ t, exec (eventInstr ev) s = .next t := by
  cases ev with
  | timeout => exact ⟨_, rxWaitStart_timeout hl⟩
  | byte b =>
    by_cases hb : b = 0x40
    · exact ⟨_, rxWaitStart_start hl hb⟩
    · by_cases hc : s.missCnt = 9
      · exact ⟨_, rxWaitStart_limit hl hb hc⟩
      · exact ⟨_, rxWaitStart_miss hl hb hc⟩

theorem rxHeader_goes_on (ev : LinkEvent) (hl : s.lstate = .rxHeader) (hi : s.byteIdx.toNat < 8) :
    ∃ t, exec (eventInstr ev) s = .next t := by
  cases ev with
  | timeout => exact ⟨_, rxHeader_timeout hl⟩
  | byte b =>
    obtain hi | hi := Nat.lt_succ_iff_lt_or_eq.1 hi
    · exact ⟨_, rxHeader_byte hl hi⟩
    · obtain ⟨t, ht⟩ := rxHeaderDone_goes_on (storeHeaderByte b s)
      exact ⟨t, (rxHeader_lastByte hl hi).trans ht⟩

theorem rxPayload_goes_on (ev : LinkEvent) (hl : s.lstate = .rxPayload) (hn : s.rlen.toNat ≤ 4096)
    (hi : s.byteIdx.toNat < s.rlen.toNat) : ∃ t, exec (eventInstr ev) s = .next t := by
  cases ev with
  | timeout => exact ⟨_, rxPayload_timeout hl⟩
  | byte b =>
    obtain hi | hi := Nat.lt_or_eq_of_le (Nat.succ_le_of_lt hi)
    · exact ⟨_, rxPayload_byte hl hi hn⟩
    · obtain ⟨t, ht⟩ := rxFinish_goes_on (s := storePayloadByte b s) hn
      exact ⟨t, (rxPayload_lastByte hl hi hn).trans ht⟩

/-- A transmission goes on, acknowledged or not, because its payload is within the buffer. -/
theorem transmitting_goes_on (ev : LinkEvent) (htx : transmitting s.lstate = true) (hn : s.ilen.toNat ≤ 4104) :
    ∃ t, exec (eventInstr ev) s = .next t := by
  cases hl : s.lstate with
  | idle | rxHunt | rxWaitStart | rxHeader | rxPayload => rw [hl] at htx; cases htx
  | txWaitSyncAck =>
    by_cases ha : ev = .byte 0x21
    · subst ha; exact ⟨_, txSyncAck_ack hl⟩
    · obtain hc | hc := Nat.lt_or_eq_of_le (Nat.le_of_lt_succ s.txTries.isLt)
      · exact ⟨_, txSyncAck_resend hl ha hc⟩
      · exact ⟨_, txSyncAck_fail hl ha hc⟩
  | txWaitHdrAck =>
    by_cases ha : ev = .byte 0x21
    · subst ha; exact ⟨_, txHdrAck_ack hl hn⟩
    · exact ⟨_, txHdrAck_fail hl ha⟩
  | txWaitPayAck =>
    by_cases ha : ev = .byte 0x21
    · subst ha; exact ⟨_, txPayAck_ack hl⟩
    · exact ⟨_, txPayAck_fail hl ha⟩

/-- With the sequencer's counters in their ranges, every link event has a next state. -/
theorem event_goes_on (ev : LinkEvent) (hcnt : CountersSound s) : ∃ t, exec (eventInstr ev) s = .next t := by
  cases hl : s.lstate with
  | idle => exact ⟨_, event_of_idle hl⟩
  | rxHunt => exact rxHunt_goes_on ev hl
  | rxWaitStart => exact rxWaitStart_goes_on ev hl
  | rxHeader =>
    obtain ⟨-, hi, -⟩ := (countersSound_rxHeader hl).1 hcnt
    exact rxHeader_goes_on ev hl hi
  | rxPayload =>
    obtain ⟨-, hn, hi, -⟩ := (countersSound_rxPayload hl).1 hcnt
    exact rxPayload_goes_on ev hl hn hi
  | txWaitSyncAck | txWaitHdrAck | txWaitPayAck =>
    have htx : transmitting s.lstate = true := by rw [hl]; rfl
    obtain ⟨-, -, -, hn⟩ := (countersSound_transmitting htx).1 hcnt
    exact transmitting_goes_on ev htx (by omega)

/-- A link event keeps the sequencer's counters in their ranges. -/
theorem LinkStep.countersSound (hcnt : CountersSound s) (h : LinkStep ev s t) : CountersSound t := by
  by_cases hl : s.lstate = .idle
  · rw [h.eq_of_idle hl]; exact hcnt
  · obtain ⟨hl', hrec⟩ | ⟨-, -, -, -, hcnt'⟩ := h.record hl hcnt
    · exact ⟨hrec.miss, hrec.index, by rw [hl']; trivial⟩
    · exact hcnt'

/-! #### What a reception can still emit (R164) -/

/-- `k` acknowledgements and nothing else emitted between two states. -/
def AcksSent (k : Nat) (s t : State) : Prop := t.txout = s.txout ++ List.replicate k Config.ackByte

theorem AcksSent.trans {j k : Nat} {u : State} (hj : AcksSent j s t) (hk : AcksSent k t u) : AcksSent (j + k) s u := by
  rw [AcksSent, List.replicate_add, ← List.append_assoc, ← hj]
  exact hk

theorem acksSent_zero (h : t.txout = s.txout) : AcksSent 0 s t := h.trans (List.append_nil _).symm

/-- How many acknowledgements a reception has still to send: for the sync run, for the header and for the payload. A
transmission sends none. -/
def acksLeft : LState → Nat
  | .rxHunt => 3
  | .rxWaitStart | .rxHeader => 2
  | .rxPayload => 1
  | .idle | .txWaitSyncAck | .txWaitHdrAck | .txWaitPayAck => 0

theorem rxFinish_acks (h : rxFinish s = .next t) : ∃ k ≤ 1, AcksSent k s t := by
  obtain ⟨-, ⟨-, rfl⟩ | ⟨-, rfl⟩⟩ := rxFinish_next h
  · exact ⟨0, Nat.zero_le 1, acksSent_zero rfl⟩
  · exact ⟨1, le_rfl, rfl⟩

/-- A link event of a reception stays in it, or ends it, and spends the acknowledgements that it sends. -/
theorem LinkStep.acks (hrx : transmitting s.lstate = false) (h : LinkStep ev s t) :
    transmitting t.lstate = false ∧ ∃ k, k + acksLeft t.lstate ≤ acksLeft s.lstate ∧ AcksSent k s t := by
  have ended (hl : t.lstate = .idle) (hout : t.txout = s.txout) :
      transmitting t.lstate = false ∧ ∃ k, k + acksLeft t.lstate ≤ acksLeft s.lstate ∧ AcksSent k s t := by
    rw [hl]
    exact ⟨rfl, 0, Nat.zero_le _, acksSent_zero hout⟩
  cases h with
  | refused | huntOther | huntSync | startMiss | headerByte | payloadByte =>
    exact ⟨hrx, 0, (Nat.zero_add _).le, acksSent_zero rfl⟩
  | huntRun hl => rw [hl]; exact ⟨rfl, 1, le_rfl, rfl⟩
  | startFound hl => rw [hl]; exact ⟨rfl, 0, le_rfl, acksSent_zero rfl⟩
  | headerDone hl _ hu => subst hu; rw [hl]; exact ⟨rfl, 1, le_rfl, rfl⟩
  | @headerEmpty b _ _ _ hl _ hu _ hf =>
    subst hu
    have hack : AcksSent 1 s (ackHeader (takeHeader (storeHeaderByte b s))) := rfl
    obtain ⟨k, hk, hsent⟩ := rxFinish_acks hf
    rw [rxFinish_lstate hf, hl]
    exact ⟨rfl, 1 + k, Nat.add_le_add_left hk 1, hack.trans hsent⟩
  | payloadLast hl _ _ hf =>
    obtain ⟨k, hk, hsent⟩ := rxFinish_acks hf
    rw [rxFinish_lstate hf, hl]
    exact ⟨rfl, k, hk, hsent⟩
  | headerOversize _ _ hu => subst hu; exact ended rfl rfl
  | huntTimeout | startLimit | startTimeout | headerTimeout | payloadTimeout => exact ended rfl rfl
  | syncAcked hl | syncRetry hl | syncFailed hl | headerAcked hl | headerFailed hl | payloadAcked hl
  | payloadFailed hl => rw [hl] at hrx; cases hrx

/-- Whatever the channel delivers, a reception goes on or is over, and sends no more acknowledgements than are left. -/
theorem feed_acks (evs : List LinkEvent) (hcnt : CountersSound s) (hrx : transmitting s.lstate = false) :
    ∃ t, feed evs s = .next t ∧ ∃ k ≤ acksLeft s.lstate, AcksSent k s t := by
  induction evs generalizing s with
  | nil => exact ⟨s, rfl, 0, Nat.zero_le _, acksSent_zero rfl⟩
  | cons ev evs ih =>
    obtain ⟨u, hu⟩ := event_goes_on ev hcnt
    have hstep : LinkStep ev s u := linkEvent_next ((exec_eventInstr ev s).symm.trans hu)
    obtain ⟨hrx', j, hj, hsent⟩ := hstep.acks hrx
    obtain ⟨t, hfeed, k, hk, hrest⟩ := ih (hstep.countersSound hcnt) hrx'
    refine ⟨t, ?_, j + k, by omega, hsent.trans hrest⟩
    rw [feed, hu]
    exact hfeed

end

/-- Settles O22: the encoding, the busy check, and the hunt started in `IDLE`. -/
theorem rxStartClearsAndHunts : Obligations.RxStartClearsAndHunts :=
  ⟨formatN_of_decodeFields fun _ => rfl, fun _ hl => whenIdle_of_active hl _, fun _ hl => execRxStart_of_idle hl⟩

/-- Settles O23: the row `IDLE` of the link events. -/
theorem linkEventInIdleIsRefused : Obligations.LinkEventInIdleIsRefused := fun _ _ hl =>
  event_of_idle hl

/-- Settles O24: a sync byte that completes the run, one that does not, any other byte, and the timeout. -/
theorem huntFindsThreeSyncBytes : Obligations.HuntFindsThreeSyncBytes := by
  refine fun s hl _ => ⟨fun hc => ?_, fun hc => ?_, fun b hb => rxHunt_other hl hb, rxHunt_timeout hl⟩
  · have hc : s.syncCnt = 2 := BitVec.eq_of_toNat_eq hc
    rw [rxHunt_run hl rfl hc, runAcked_of_syncCnt hc]
  · exact rxHunt_sync hl rfl fun h => by simp [h] at hc

/-- Settles O25: the marker, a byte before the limit, the byte at the limit, and the timeout. -/
theorem waitStartGivesUpAfterTen : Obligations.WaitStartGivesUpAfterTen := by
  refine fun s hl _ => ⟨rxWaitStart_start hl rfl, fun b hb hc => ?_, fun b hb hc => ?_, rxWaitStart_timeout hl⟩
  · exact rxWaitStart_miss hl hb fun h => by simp [h] at hc
  · have hc : s.missCnt = 9 := BitVec.eq_of_toNat_eq hc
    rw [rxWaitStart_limit hl hb hc, hc]; rfl

/-- Settles O26: a byte before the eighth; after the eighth the length above 4096, 0 with either CRC32, and between;
and the timeout. -/
theorem headerIsCheckedThenAcknowledged : Obligations.HeaderIsCheckedThenAcknowledged := by
  intro s b h f hl _ hh hf
  have hu := takeHeader_storeHeaderByte hh hf
  have hlen : (takeHeader (storeHeaderByte b s)).rlen = f.length := by rw [hu]
  have hcrc : (takeHeader (storeHeaderByte b s)).rcrc = f.crc := by rw [hu]
  refine ⟨fun hi => ?_, fun hi hn => ?_, fun hi hz hc => ?_, fun hi hz hc => ?_, fun hi hpos hn => ?_,
    rxHeader_timeout hl⟩
  · subst hh
    exact rxHeader_byte hl hi
  · have h8 : s.byteIdx + 1 = 8 := BitVec.eq_of_toNat_eq ((byteIdx_succ_toNat (by omega)).trans (by rw [hi]; rfl))
    rw [rxHeader_lastByte hl hi, rxHeaderDone_of_gt (by rwa [hlen]), hu, ← h8]; rfl
  · have hz := hlen.trans hz
    rw [rxHeader_lastByte hl hi, rxHeaderDone_of_zero hz, rxFinish_ackHeader_of_zero hz (hcrc.trans hc), hu]
  · have hz := hlen.trans hz
    rw [rxHeader_lastByte hl hi, rxHeaderDone_of_zero hz, rxFinish_ackHeader_of_ne hz (hcrc ▸ hc), hu]
  · rw [rxHeader_lastByte hl hi, rxHeaderDone_of_le (by rwa [hlen]) (by rwa [hlen]), hu]; rfl

/-- Settles O27: a byte before the last, the last one with either CRC32, and the timeout. -/
theorem payloadIsStoredThenVerified : Obligations.PayloadIsStoredThenVerified := by
  intro s b c hl hn _ hc
  set p := s.memRead .obuf 0 s.byteIdx.toNat ++ [b] with hp
  have hlen : p.length = s.byteIdx.toNat + 1 := by simp [hp]
  have hdata : (storePayloadByte b s).memRead .obuf 0 p.length = p := by rw [hlen, hp, memRead_storePayloadByte]
  refine ⟨fun hlt => ?_, fun hlast hcrc => ?_, fun hlast hcrc => ?_, rxPayload_timeout hl⟩
  · exact ⟨_, rxPayload_byte hl hlt hn, rfl, obufStored_of_obuf_eq rfl rfl⟩
  · have hdone : exec (.linkByte b) s = .next (delivered (storePayloadByte b s)) :=
      (rxPayload_lastByte hl hlast hn).trans
        (rxFinish_of_crc (hlast.symm.trans hlen.symm) (by omega) (hcrc.symm.trans hc) hdata)
    rw [delivered_eq] at hdone
    exact ⟨_, hdone, rfl, obufStored_of_obuf_eq rfl rfl⟩
  · have hdone : exec (.linkByte b) s = .next (mismatched (Config.crc32 p) (storePayloadByte b s)) :=
      (rxPayload_lastByte hl hlast hn).trans
        (rxFinish_of_crc_ne (hlast.symm.trans hlen.symm) (by omega) (hc ▸ hcrc) hdata)
    rw [← hc, mismatched_eq] at hdone
    exact ⟨_, hdone, rfl, obufStored_of_obuf_eq rfl rfl⟩

/-- Settles O28: the encoding, an activity ended, and nothing to end in `IDLE`. -/
theorem linkAbortEndsAnyActivity : Obligations.LinkAbortEndsAnyActivity :=
  ⟨formatN_of_decodeFields fun _ => rfl,
    fun _ hl => congrArg (fun t => Host.Outcome.next (complete t)) (if_neg hl),
    fun _ hl => congrArg (fun t => Host.Outcome.next (complete t)) (if_pos hl)⟩

/-- Settles O30: the hunt starts with three acknowledgements to send. -/
theorem receptionEmitsAtMostThreeAcks : Obligations.ReceptionEmitsAtMostThreeAcks := by
  intro s evs hl
  have hcnt : CountersSound (hunting s) := (countersSound_rxHunt rfl).2 ⟨Nat.zero_lt_succ 2, rfl, rfl, rfl⟩
  obtain ⟨t, hfeed, k, hk, hsent⟩ := feed_acks evs hcnt rfl
  exact ⟨hunting s, t, execRxStart_of_idle hl, hfeed, k, hk, hsent⟩

end Sys2Proof.Proofs

/-! ### SHA-256, HMAC and the comparison of tags (R181 to R187) -/

namespace Sys2Proof.Proofs

open Sys2Proof Sys2Proof.Machine Sys2Proof.Spec

section

variable {s : State} {len y : Nat}

/-! #### The padding (R181) -/

/-- With the zeros, the message and 0x80 leave room in the last block for the 8 bytes of the bit length (R181). -/
theorem shaZeros_fills (len : Nat) : (len + 1 + Config.shaZeros len) % 64 = 56 := by
  rw [Config.shaZeros]; omega

/-- No fewer zeros do (R181). -/
theorem ne_of_lt_shaZeros (h : y < Config.shaZeros len) : (len + 1 + y) % 64 ≠ 56 := by
  rw [Config.shaZeros] at h; omega

theorem shaPad_length (m : List Byte) :
    (Config.shaPad m).length = m.length + 1 + Config.shaZeros m.length + 8 := by
  simp only [Config.shaPad, List.length_append, List.length_singleton, rep_length, be64_length]

/-! #### The key block (R185) -/

/-- The key before it is padded: hashed first when it is longer than a block (R185). -/
def shortKey (k : List Byte) : List Byte := if k.length > 64 then Config.sha256 k else k

theorem shortKey_length_le (k : List Byte) : (shortKey k).length ≤ 64 := by
  unfold shortKey
  split
  next hlong => rw [sha256_length]; decide
  next hshort => exact not_lt.1 hshort

theorem hmacKey_eq (k : List Byte) :
    Config.hmacKey k = shortKey k ++ List.replicate (64 - (shortKey k).length) 0x00 := rfl

/-! #### The command (R187) -/

/-- What `SHA256` leaves: the digest of the input at the start of OBUF. -/
def digestStored (s : State) : State := complete { s.writeObuf 0 (Config.sha256 (input s)) with olen := 32 }

/-- With the input inside the buffer, `SHA256` in `IDLE` stores the digest of the input. -/
theorem execSha256_of_idle (hl : s.lstate = .idle) (hn : s.ilen.toNat ≤ Config.bufCap) :
    exec .sha256 s = .next (digestStored s) :=
  (whenIdle_of_idle hl _).trans (withinBuffer_of_le hn _)

theorem obufStored_digestStored (s : State) : ObufStored s (digestStored s) 0 (Config.sha256 (input s)) :=
  byteAt_writeObuf_obuf s 0 (Config.sha256 (input s))

end

/-- Settles O31: the encoding, the busy check, and the digest stored with everything else as it was. -/
theorem sha256StoresTheDigest : Obligations.Sha256StoresTheDigest :=
  ⟨formatN_of_decodeFields fun _ => rfl, fun _ hl => whenIdle_of_active hl _,
    fun s hl hn => ⟨digestStored s, execSha256_of_idle hl hn, rfl, sha256_length _, obufStored_digestStored s⟩⟩

/-- Settles O32: the zeros fill up to 56 modulo 64, and the bit length takes the other 8 bytes. -/
theorem shaPaddingShape : Obligations.ShaPaddingShape := by
  intro m
  have hfill := shaZeros_fills m.length
  have hlen := shaPad_length m
  exact ⟨Config.shaZeros m.length, rfl, hfill, fun _ => ne_of_lt_shaZeros, by omega, by omega⟩

/-- Settles O33: the key block is the short key padded, and a digest has 32 bytes. -/
theorem hmacIsTheNestedHash : Obligations.HmacIsTheNestedHash := by
  rintro k m k0 (rfl : k0 = shortKey k)
  refine ⟨shortKey_length_le k, ?_, hmacSha256_length k m⟩
  rw [Config.hmacSha256, hmacKey_eq]

/-- Settles O34: the differences gathered over all indices are 0 exactly when no index differs. -/
theorem constantTimeCompareIsEquality : Obligations.ConstantTimeCompareIsEquality := ctEq_iff

end Sys2Proof.Proofs

/-! ### The packet codec (R201 to R206, R211 to R216)

An equation for each way `PKT_CREATE` and `PKT_PARSE` can end. The derived rules R205 and R216 then follow from the
commands' own statements and from the layout of the packet. -/

namespace Sys2Proof.Proofs

open Sys2Proof Sys2Proof.Machine Sys2Proof.Spec

section

variable {s t : State} {d r f q : Byte}

/-! #### `PKT_CREATE` (R201 to R204) -/

/-- What `PKT_CREATE` leaves when it succeeds: the counter and NV advanced, and the packet that carries the new id. -/
def packetBuilt (d r f q : Byte) (s : State) : State :=
  complete
    { (advanceMsgId s).writeObuf 0 (packet s.params.key d r f q (input s) s.bootCount (s.msgId + 1)) with
      olen := BitVec.ofNat 16 (45 + s.ilen.toNat), rboot := s.bootCount, rmsg := s.msgId + 1 }

theorem execPktCreate_of_gt (hl : s.lstate = .idle) (hn : 210 < s.ilen.toNat) :
    exec (.pktCreate d r f q) s = .next (takeError .length s) :=
  (whenIdle_of_idle hl _).trans (congrArg Host.Outcome.next (if_pos hn))

theorem execPktCreate_of_max (hl : s.lstate = .idle) (hn : s.ilen.toNat ≤ 210) (hm : s.msgId = 0xFFFFFFFF) :
    exec (.pktCreate d r f q) s = .next (takeError .ctr s) :=
  (whenIdle_of_idle hl _).trans (congrArg Host.Outcome.next ((if_neg (not_lt.2 hn)).trans (if_pos hm)))

theorem execPktCreate_of_lt (hl : s.lstate = .idle) (hn : s.ilen.toNat ≤ 210) (hm : s.msgId ≠ 0xFFFFFFFF) :
    exec (.pktCreate d r f q) s = .next (packetBuilt d r f q s) :=
  (whenIdle_of_idle hl _).trans (congrArg Host.Outcome.next ((if_neg (not_lt.2 hn)).trans (if_neg hm)))

theorem packetBuilt_olen (hn : s.ilen.toNat ≤ 210) : (packetBuilt d r f q s).olen.toNat = 45 + s.ilen.toNat :=
  Nat.mod_eq_of_lt (by omega)

/-- Below its maximum the message id advances without wrapping (R204). -/
theorem toNat_msgId_add_one (hm : s.msgId ≠ 0xFFFFFFFF) : (s.msgId + 1).toNat = s.msgId.toNat + 1 := by bv_omega

theorem obufStored_packetBuilt :
    ObufStored s (packetBuilt d r f q s) 0 (packet s.params.key d r f q (input s) s.bootCount (s.msgId + 1)) :=
  byteAt_writeObuf_obuf s 0 _

/-- A string stored in OBUF is read back from its index on. -/
theorem memRead_of_obufStored {i : Nat} {bs : List Byte} (h : ObufStored s t i bs) :
    t.memRead .obuf i bs.length = bs :=
  (memRead_congr fun a _ _ => (h a).trans (byteAt_writeObuf_obuf s i bs a).symm).trans (memRead_writeObuf s i bs)

/-! #### `PKT_PARSE` (R211 to R215) -/

/-- `PKT_PARSE` in `IDLE`, its checks with the lengths of the whole packet; whatever they find, the flags are cleared
(R212). -/
theorem execPktParse_of_idle (hl : s.lstate = .idle) : exec .pktParse s = .next (
    if s.ilen.toNat < 5 then takeError .short (clearParseFlags s)
    else if s.authEn then
      if s.ilen.toNat < 45 + declaredLen s then takeError .short (clearParseFlags s)
      else if 45 + declaredLen s < s.ilen.toNat then takeError .format (clearParseFlags s)
      else if !tagsEqual s && s.authEnforce then takeError .auth (clearParseFlags s)
      else complete (pktDeliver (input s) (declaredLen s) (tagsEqual s) (clearParseFlags s))
    else if s.ilen.toNat < 5 + declaredLen s then takeError .short (clearParseFlags s)
    else complete (pktDeliver (input s) (declaredLen s) false (clearParseFlags s))) := whenIdle_of_idle hl _

end

/-- Settles O36: the encoding, the busy check, the two errors and the packet built. -/
theorem pktCreateBuildsThePacket : Obligations.PktCreateBuildsThePacket := by
  refine ⟨fun d r f q => ?encoding, fun _ _ _ _ _ hl => whenIdle_of_active hl _,
    fun _ _ _ _ _ hl hn => execPktCreate_of_gt hl hn, fun _ _ _ _ _ hl hn hm => execPktCreate_of_max hl hn hm,
    fun d r f q s hl hn hm => ⟨packetBuilt d r f q s, execPktCreate_of_lt hl hn hm, rfl, packetBuilt_olen hn,
      toNat_msgId_add_one hm, obufStored_packetBuilt⟩⟩
  case encoding =>
    rw [decode_append]
    exact formatP_eq_ok_iff.2 ⟨d, r, f, q, rfl, rfl⟩

/-- Settles O37: each clause takes the branch of one check, the checks before it passed. -/
theorem pktParseErrorsInOrder : Obligations.PktParseErrorsInOrder := by
  refine ⟨formatN_of_decodeFields fun _ => rfl, fun _ hl => whenIdle_of_active hl _, ?_⟩
  rintro s c p n l hl rfl rfl rfl (rfl : l = declaredLen s)
  rw [execPktParse_of_idle hl]
  refine ⟨fun hhdr => ?noHeader, fun h5 hen hshort => ?short, fun h5 hen hlong => ?trailing,
    fun hen hn htag henf => ?tag, fun h5 hen hshort => ?shortPlain⟩
  case noHeader => rw [if_pos hhdr]; rfl
  case short => rw [if_neg (not_lt.2 h5), if_pos hen, if_pos hshort]; rfl
  case trailing => rw [if_neg (not_lt.2 h5), if_pos hen, if_neg (not_lt.2 hlong.le), if_pos hlong]; rfl
  case tag =>
    have hbad : (!tagsEqual s && s.authEnforce) = true := by
      rw [Bool.eq_false_iff.2 fun h => htag (tagsEqual_iff.1 h), henf]; rfl
    rw [if_neg (by omega), if_pos hen, if_neg (by omega), if_neg (by omega), if_pos hbad]; rfl
  case shortPlain => rw [if_neg (not_lt.2 h5), if_neg (Bool.eq_false_iff.1 hen), if_pos hshort]; rfl

/-! #### A packet parsed (R216) -/

/-- The first bytes of a packet are its header's, and byte 4 is the length of the data. -/
theorem packet_getD (key data : List Byte) (dst src flags seq : Byte) (boot msg : Word) :
    let p := packet key dst src flags seq data boot msg
    p.getD 0 0 = dst ∧ p.getD 1 0 = src ∧ p.getD 2 0 = flags ∧ p.getD 3 0 = seq ∧
      p.getD 4 0 = BitVec.ofNat 8 data.length := ⟨rfl, rfl, rfl, rfl, rfl⟩

/-- Settles O40: a changed length differs from the packet's, which decides before the tag is looked at. -/
theorem changedLenByteIsRefused : Obligations.ChangedLenByteIsRefused := by
  intro s key data dst src flags seq v boot msg hl hen _ hv hinput
  have hn : s.ilen.toNat = 45 + data.length := by rw [← input_length, hinput, List.length_set, packet_length]
  have hlen : ((input s).getD 4 0).toNat = v.toNat := by
    rw [hinput, List.getD_eq_getElem?_getD, List.getElem?_set_self (by rw [packet_length]; omega)]; rfl
  obtain ⟨-, -, herrors⟩ := pktParseErrorsInOrder
  obtain ⟨-, hshort, hformat, -, -⟩ := herrors s _ _ _ v.toNat hl rfl rfl rfl hlen.symm
  by_cases hlt : data.length < v.toNat
  · rw [if_pos hlt]
    exact hshort (by omega) hen (by omega)
  · rw [if_neg hlt]
    exact hformat (by omega) hen (by omega)

/-- With authentication, an input that is a packet made with the same key is accepted, and its parts come apart. -/
theorem execPktParse_of_input_eq_packet {s : State} {data : List Byte} {dst src flags seq : Byte} {boot msg : Word}
    (hl : s.lstate = .idle) (hen : s.authEn = true) (hdata : data.length ≤ 210)
    (hinput : input s = packet s.params.key dst src flags seq data boot msg) :
    ∃ t : State, exec .pktParse s = .next t ∧
      t = { s with rdst := dst, rsrc := src, rflg := flags, rseq := seq.setWidth 16,
                   rlen := BitVec.ofNat 16 data.length, obuf := t.obuf, olen := BitVec.ofNat 16 data.length,
                   authOk := true, authWarn := false, footerValid := true, rboot := boot, rmsg := msg, err := .ok } ∧
      ObufStored s t 0 data := by
  obtain ⟨-, -, -, hbody, hboot, hmsg, htag⟩ := packetLayout _ _ dst src flags seq boot msg _ hdata hinput
  obtain ⟨hdst, hsrc, hflags, hseq, hlen⟩ := packet_getD s.params.key data dst src flags seq boot msg
  rw [← hinput] at hdst hsrc hflags hseq hlen
  have hn : s.ilen.toNat = 45 + data.length := by rw [← input_length, hinput, packet_length]
  have hl4 : data.length = ((input s).getD 4 0).toNat := by
    rw [hlen]; exact (Nat.mod_eq_of_lt (by omega)).symm
  have htagStart : s.ilen.toNat - 32 = 13 + data.length := by omega
  obtain ⟨hdeliver, -, -⟩ := pktParseDelivers s _ _ data.length hl rfl rfl hl4
  obtain ⟨t, hexec, ht, htboot, htmsg, hstored⟩ := hdeliver hen hn (by rw [htagStart, hn]; exact htag)
  rw [hbody] at hstored
  have hrboot : t.rboot = boot := BitVec.eq_of_toNat_eq (htboot.trans hboot)
  have hrmsg : t.rmsg = msg := BitVec.eq_of_toNat_eq (htmsg.trans hmsg)
  rw [hdst, hsrc, hflags, hseq, hrboot, hrmsg] at ht
  exact ⟨t, hexec, ht, hstored⟩

/-- Settles O39: what `PKT_CREATE` leaves in OBUF is a packet, and this packet is the input of `PKT_PARSE`. -/
theorem packetRoundTrip : Obligations.PacketRoundTrip := by
  intro s data dst src flags seq hl hdata hm hen
  set a := loadInput data s
  set b := packetBuilt dst src flags seq a
  set p := packet s.params.key dst src flags seq data s.bootCount (s.msgId + 1)
  set c := loadInput p b
  have hilen : a.ilen.toNat = data.length := loadInput_ilen (by omega)
  have hn : a.ilen.toNat ≤ 210 := hilen.trans_le hdata
  have hplen : p.length = 45 + data.length := packet_length ..
  have hsize : p.length ≤ 4104 := by omega
  have hstored : ObufStored a b 0 p := by
    have h : ObufStored a b 0 (packet s.params.key dst src flags seq (input a) s.bootCount (s.msgId + 1)) :=
      obufStored_packetBuilt
    rwa [input_loadInput (by omega)] at h
  have hread : b.memRead .obuf 0 b.olen.toNat = p := by
    rw [packetBuilt_olen hn, hilen, ← hplen]
    exact memRead_of_obufStored hstored
  have hreload : hostLoad (b.memRead .obuf 0 b.olen.toNat) b = .next c := by
    rw [hread]; exact hostLoad_of_idle hl hsize
  obtain ⟨d, hparse, hd, hdataStored⟩ :=
    execPktParse_of_input_eq_packet (s := c) hl hen hdata (input_loadInput hsize)
  have hdlen : (BitVec.ofNat 16 data.length).toNat = data.length := toNat_ofNat_length (by omega)
  refine ⟨a, b, c, d, hostLoad_of_idle hl (by omega), execPktCreate_of_lt hl hn hm, hreload, hparse, rfl, ?_⟩
  have holen : d.olen.toNat = data.length := by rw [hd]; exact hdlen
  have hrlen : d.rlen.toNat = data.length := by rw [hd]; exact hdlen
  rw [holen, hrlen, memRead_of_obufStored hdataStored, hd]
  exact ⟨rfl, rfl, rfl, rfl, rfl, rfl, rfl, rfl, rfl, rfl, rfl, rfl⟩

/-! #### Consecutive packets (R205) -/

/-- Consecutive ids from `m` on are `m` and then the consecutive ids from `m + 1` on. -/
theorem map_ids_succ (m : Word) (n : Nat) :
    ((List.range (n + 1)).map fun k => m + BitVec.ofNat 32 k) =
      m :: (List.range n).map fun k => m + 1 + BitVec.ofNat 32 k := by
  have hsucc (k : Nat) : m + BitVec.ofNat 32 (k + 1) = m + 1 + BitVec.ofNat 32 k := by
    rw [Nat.add_comm, BitVec.ofNat_add, ← BitVec.add_assoc]; rfl
  rw [List.range_succ_eq_map, List.map_cons, List.map_map, BitVec.add_zero]
  exact congrArg (m :: ·) (List.map_congr_left fun k _ => hsucc k)

/-- Settles O44, by induction on the commands: each packet takes the next id and leaves `IDLE`, the input and the
counter ready for the rest. -/
theorem consecutivePacketsHaveNoGaps : Obligations.ConsecutivePacketsHaveNoGaps := by
  intro cmds
  induction cmds with
  | nil => intros; rfl
  | cons cmd cmds ih =>
    obtain ⟨d, r, f, q⟩ := cmd
    intro s hl hn hroom
    rw [List.length_cons] at hroom
    have hm : s.msgId ≠ 0xFFFFFFFF := by rintro h; rw [h] at hroom; simp at hroom
    have hrest := ih (packetBuilt d r f q s) hl hn (by
      have hnext : (packetBuilt d r f q s).msgId.toNat = s.msgId.toNat + 1 := toNat_msgId_add_one hm
      omega)
    rw [List.map_cons, issuedIds, execPktCreate_of_lt hl hn hm, List.length_cons, map_ids_succ]
    exact congrArg (List.cons (s.msgId + 1)) hrest

end Sys2Proof.Proofs

/-! ### The anti-replay state store (R231 to R236)

An equation for each way `ADV_MSGID` and `SYNC_BOOT` can end, and for the one way of `NV_LOAD`. -/

namespace Sys2Proof.Proofs

open Sys2Proof Sys2Proof.Machine Sys2Proof.Spec Sys2Proof.Safety

section

variable {s : State} {v : Word}

/-! #### `SYNC_BOOT` (R233 to R235) -/

/-- Format W has no reserved bit: every argument is a boot count (R71). -/
theorem decode_syncBoot (v : Word) : decode (0x61#8 ++ v) = .ok (.syncBoot v) := by
  rw [decode_append]
  exact formatW_eq_ok_iff.2 rfl

theorem syncBoot_of_gt (hv : s.bootCount.toNat < v.toNat) : syncBoot v s = complete (adoptBootCount v s) :=
  if_pos hv

/-- A lower value is flagged under either policy; the policy decides whether it is adopted (R233, R234). -/
theorem syncBoot_of_lt (hv : v.toNat < s.bootCount.toNat) :
    syncBoot v s = complete (if s.adoptLower then adoptBootCount v (flagAnomaly s) else flagAnomaly s) :=
  (if_neg hv.le.not_gt).trans (if_pos hv)

theorem syncBoot_bootCount : syncBoot s.bootCount s = complete s :=
  (if_neg (lt_irrefl _)).trans (if_neg (lt_irrefl _))

theorem execSyncBoot_of_idle (hl : s.lstate = .idle) : exec (.syncBoot v) s = .next (syncBoot v s) :=
  whenIdle_of_idle hl _

/-! #### `ADV_MSGID` (R231) -/

/-- What `ADV_MSGID` leaves when it succeeds: the counter and NV advanced, and the new id reported. -/
def msgIdAdvanced (s : State) : State := complete { advanceMsgId s with rmsg := s.msgId + 1 }

theorem execAdvMsgid_of_max (hl : s.lstate = .idle) (hm : s.msgId = 0xFFFFFFFF) :
    exec .advMsgid s = .next (takeError .ctr s) :=
  (whenIdle_of_idle hl _).trans (congrArg Host.Outcome.next (if_pos hm))

theorem execAdvMsgid_of_lt (hl : s.lstate = .idle) (hm : s.msgId ≠ 0xFFFFFFFF) :
    exec .advMsgid s = .next (msgIdAdvanced s) :=
  (whenIdle_of_idle hl _).trans (congrArg Host.Outcome.next (if_neg hm))

/-! #### `NV_LOAD` (R236) -/

theorem execNvLoad_of_idle (hl : s.lstate = .idle) : exec .nvLoad s = .next (complete (loadCounters s)) :=
  whenIdle_of_idle hl _

/-- Counters that agree with NV are not changed by loading them from it (R236). -/
theorem loadCounters_of_saved (hs : CountersSaved s) : loadCounters s = s :=
  congrArg₂ (fun b m => { s with bootCount := b, msgId := m }) hs.1.symm hs.2.symm

end

/-- Settles O42: the encoding, the busy check, and the value above, below under either policy, and equal to the
count. -/
theorem syncBootAdoptsAndFlags : Obligations.SyncBootAdoptsAndFlags := by
  refine ⟨decode_syncBoot, fun _ _ hl => whenIdle_of_active hl _, fun v s hl hv => ?above,
    fun v s hl hv hpolicy => ?belowAdopted, fun v s hl hv hpolicy => ?belowKept, fun s hl => ?equal⟩
  case above => rw [execSyncBoot_of_idle hl, syncBoot_of_gt hv]; rfl
  case belowAdopted => rw [execSyncBoot_of_idle hl, syncBoot_of_lt hv, if_pos hpolicy]; rfl
  case belowKept => rw [execSyncBoot_of_idle hl, syncBoot_of_lt hv, hpolicy]; rfl
  case equal => rw [execSyncBoot_of_idle hl, syncBoot_bootCount]; rfl

/-- Settles O41: the encoding, the busy check, the counter at its maximum, and the counter advanced below it. -/
theorem advMsgidAdvancesAndPersists : Obligations.AdvMsgidAdvancesAndPersists :=
  ⟨formatN_of_decodeFields fun _ => rfl, fun _ hl => whenIdle_of_active hl _,
    fun _ hl hm => execAdvMsgid_of_max hl hm,
    fun s hl hm => ⟨msgIdAdvanced s, execAdvMsgid_of_lt hl hm, rfl, toNat_msgId_add_one hm⟩⟩

/-- Settles O43: the encoding, the busy check, and the reload, which changes no counter that agrees with NV. -/
theorem nvLoadReloadsBothCounters : Obligations.NvLoadReloadsBothCounters := by
  refine ⟨formatN_of_decodeFields fun _ => rfl, fun _ hl => whenIdle_of_active hl _,
    fun _ hl => execNvLoad_of_idle hl, fun s hl hs => ?_⟩
  rw [execNvLoad_of_idle hl, loadCounters_of_saved hs]
  rfl

end Sys2Proof.Proofs

/-! ### The system commands and the rules of every command (R250, R252, R260, R261, R265, R266, R270, R326)

The codes that each command reports, the busy check and the precision of errors, for all nineteen commands at once; and
that in a sound state none of them stops at the bound of a buffer. -/

namespace Sys2Proof.Proofs

open Sys2Proof Sys2Proof.Machine Sys2Proof.Spec Sys2Proof.Safety

section

variable {i : Instr} {ev : LinkEvent} {s t u : State} {k : Result}

/-! #### A sound state runs every command (R326) -/

/-- The busy check has a next state where the command behind it has one. -/
theorem whenIdle_goes_on (h : k = .next u) : ∃ t, whenIdle s k = .next t := by
  by_cases hl : s.lstate = .idle
  · exact ⟨u, (whenIdle_of_idle hl k).trans h⟩
  · exact ⟨_, whenIdle_of_active hl k⟩

/-- With the input within IBUF and the sequencer's counters in their ranges, every command has a next state: only
`CRC32`, `SHA256` and the link events access a buffer at a bound that their own checks do not set. -/
theorem exec_goes_on (i : Instr) (hn : s.ilen.toNat ≤ Config.bufCap) (hcnt : CountersSound s) :
    ∃ t, exec i s = .next t := by
  cases i with
  | nop | linkAbort => exact ⟨_, rfl⟩
  | linkByte b => exact event_goes_on (.byte b) hcnt
  | linkTimeout => exact event_goes_on .timeout hcnt
  | crc32 | sha256 => exact whenIdle_goes_on (withinBuffer_of_le hn _)
  | _ => exact whenIdle_goes_on rfl

/-! #### The busy check (R266) -/

/-- Every command but the four is behind the busy check. -/
theorem exec_of_active (ha : anyState i = false) (hl : s.lstate ≠ .idle) :
    exec i s = .next (takeError .busy s) := by
  cases i with
  | nop | linkByte | linkTimeout | linkAbort => cases ha
  | _ => exact whenIdle_of_active hl _

/-- `ERR_BUSY` stands in the table of codes for the commands behind the busy check and for no others. -/
theorem busy_mem_codes_iff : Err.busy ∈ codes i ↔ anyState i = false := by
  cases i <;> simp [codes, anyState]

/-! #### Link events and errors (R152, R153) -/

theorem rxFinish_err (h : rxFinish s = .next t) : t.err = .ok := by
  obtain ⟨-, ⟨-, rfl⟩ | ⟨-, rfl⟩⟩ := rxFinish_next h <;> rfl

/-- A link event is refused in `IDLE`, and otherwise completes, even where it ends the activity in a failure. -/
theorem LinkStep.refused_or_ok (h : LinkStep ev s t) : t = takeError .state s ∨ t.err = .ok := by
  cases h with
  | refused => exact .inl rfl
  | headerEmpty _ _ _ _ hf | payloadLast _ _ _ hf => exact .inr (rxFinish_err hf)
  | _ => exact .inr rfl

/-! #### The codes of each command (R260, R265) -/

/-- A check that fails reports its code; one that passes leaves the code to what follows. -/
theorem err_mem_of_check {c : Prop} [Decidable c] {e : Err} {es : List Err} (he : e ∈ es) (hu : u.err ∈ es) :
    (if c then takeError e s else u).err ∈ es := by
  split
  next => exact he
  next => exact hu

/-- A command that completes reports `OK`, which heads its row of the table. -/
theorem complete_err_mem {es : List Err} : (complete s).err ∈ Err.ok :: es := List.mem_cons_self ..

theorem encHdr_err (q : Half) : (encHdr q s).err ∈ codes (.encHdr q) :=
  err_mem_of_check (by simp [codes]) complete_err_mem

theorem decHdr_err : (decHdr s).err ∈ codes .decHdr :=
  err_mem_of_check (by simp [codes]) <| err_mem_of_check (by simp [codes]) complete_err_mem

theorem frmEnc_err (q : Half) : (frmEnc q s).err ∈ codes (.frmEnc q) :=
  err_mem_of_check (by simp [codes]) complete_err_mem

/-- The five checks of R117, then the delivery. -/
theorem frmDec_err : (frmDec s).err ∈ codes .frmDec :=
  err_mem_of_check (by simp [codes]) <| err_mem_of_check (by simp [codes]) <| err_mem_of_check (by simp [codes]) <|
    err_mem_of_check (by simp [codes]) <| err_mem_of_check (by simp [codes]) complete_err_mem

theorem txStart_err (q : Half) : (txStart q s).err ∈ codes (.txStart q) :=
  err_mem_of_check (by simp [codes]) complete_err_mem

theorem pktCreate_err (d r f q : Byte) : (pktCreate d r f q s).err ∈ codes (.pktCreate d r f q) :=
  err_mem_of_check (by simp [codes]) <| err_mem_of_check (by simp [codes]) complete_err_mem

/-- The header's check, then those of R211 with or without authentication. -/
theorem pktParse_err : (pktParse s).err ∈ codes .pktParse := by
  refine err_mem_of_check (by simp [codes]) ?_
  split
  next =>
    exact err_mem_of_check (by simp [codes]) <| err_mem_of_check (by simp [codes]) <|
      err_mem_of_check (by simp [codes]) complete_err_mem
  next => exact err_mem_of_check (by simp [codes]) complete_err_mem

theorem advMsgid_err : (advMsgid s).err ∈ codes .advMsgid :=
  err_mem_of_check (by simp [codes]) complete_err_mem

/-- `SYNC_BOOT` completes above, below and at the boot count (R233). -/
theorem syncBoot_err (v : Word) : (syncBoot v s).err ∈ codes (.syncBoot v) := by
  unfold Machine.syncBoot
  split
  next => exact complete_err_mem
  next => split <;> exact complete_err_mem

/-- A command behind the busy check reports `ERR_BUSY` or a code of its own. -/
theorem whenIdle_err (ha : anyState i = false) (hk : k = .next t → t.err ∈ codes i) (h : whenIdle s k = .next t) :
    t.err ∈ codes i := by
  obtain ⟨-, h⟩ | ⟨-, rfl⟩ := whenIdle_next h
  · exact hk h
  · exact busy_mem_codes_iff.2 ha

/-- The same for a command whose pseudocode always goes on. -/
theorem whenIdle_next_err (ha : anyState i = false) (hu : u.err ∈ codes i) (h : whenIdle s (.next u) = .next t) :
    t.err ∈ codes i :=
  whenIdle_err ha (fun hk => Host.Outcome.next.inj hk ▸ hu) h

/-- The same for a command that accesses a buffer up to a bound. -/
theorem withinBuffer_err {n : Nat} (ha : anyState i = false) (hu : u.err ∈ codes i)
    (h : whenIdle s (withinBuffer n (.next u)) = .next t) : t.err ∈ codes i := by
  refine whenIdle_err ha (fun hk => ?_) h
  obtain ⟨-, hk⟩ := withinBuffer_next hk
  exact Host.Outcome.next.inj hk ▸ hu

theorem linkEvent_err (h : linkEvent ev s = .next t) : t.err ∈ codes (eventInstr ev) := by
  have hcodes : codes (eventInstr ev) = [.ok, .state] := by cases ev <;> rfl
  obtain rfl | hok := (linkEvent_next h).refused_or_ok
  · simp [hcodes]
  · simp [hcodes, hok]

/-- Every command reports a code of the table. -/
theorem exec_err (h : exec i s = .next t) : t.err ∈ codes i := by
  cases i with
  | nop | linkAbort => cases h; exact complete_err_mem
  | wrCfg | clrSticky | rxStart | nvLoad => exact whenIdle_next_err rfl complete_err_mem h
  | crc32 | sha256 => exact withinBuffer_err rfl complete_err_mem h
  | encHdr q => exact whenIdle_next_err rfl (encHdr_err q) h
  | decHdr => exact whenIdle_next_err rfl decHdr_err h
  | frmEnc q => exact whenIdle_next_err rfl (frmEnc_err q) h
  | frmDec => exact whenIdle_next_err rfl frmDec_err h
  | txStart q => exact whenIdle_next_err rfl (txStart_err q) h
  | linkByte b => exact linkEvent_err (ev := .byte b) h
  | linkTimeout => exact linkEvent_err (ev := .timeout) h
  | pktCreate d r f q => exact whenIdle_next_err rfl (pktCreate_err d r f q) h
  | pktParse => exact whenIdle_next_err rfl pktParse_err h
  | advMsgid => exact whenIdle_next_err rfl advMsgid_err h
  | syncBoot v => exact whenIdle_next_err rfl (syncBoot_err v) h

/-! #### Precise errors (R270) -/

/-- A command that fails in `IDLE` wrote `ERR` alone, or is a `PKT_PARSE`, which has cleared its flags (R212). -/
theorem IdleEffect.precise (h : IdleEffect i s t) (he : t.err ≠ .ok) :
    t = takeError t.err s ∨ (i = .pktParse ∧ t = takeError t.err (clearParseFlags s)) := by
  cases h with
  | failed => exact .inl rfl
  | parseFailed => exact .inr ⟨rfl, rfl⟩
  | _ => exact absurd rfl he

end

/-- Settles O7: the encoding, and `NOP` in every `LSTATE`. -/
theorem nopOnlyClearsErr : Obligations.NopOnlyClearsErr :=
  ⟨formatN_of_decodeFields fun _ => rfl, fun _ => rfl⟩

/-- Settles O9: the encoding, the busy check, and the flag cleared in `IDLE`. -/
theorem clrStickyClearsOnlyBootAnomaly : Obligations.ClrStickyClearsOnlyBootAnomaly :=
  ⟨formatN_of_decodeFields fun _ => rfl, fun _ hl => whenIdle_of_active hl _, fun _ hl => whenIdle_of_idle hl _⟩

/-- Settles O60: the bounds that the invariants give let every command go on, and every command keeps the invariants. -/
theorem soundStatesRunEveryCommand : Obligations.SoundStatesRunEveryCommand := by
  intro i s hs
  have hsound := hs
  obtain ⟨-, ⟨hilen, -⟩, -, -, hcnt, -⟩ := hs
  obtain ⟨t, ht⟩ := exec_goes_on i hilen hcnt
  exact ⟨t, ht, exec_sound hsound ht⟩

/-- Settles O5: a word that decodes selects a row of the table (R73), so one that selects none does not decode; nor does
a value for `OP` with a bit above the opcode (R74). -/
theorem illegalWordWritesOnlyErr : Obligations.IllegalWordWritesOnlyErr := by
  refine ⟨fun w s hrows => ?word, fun v s hv => ?port⟩
  case word =>
    cases hd : decode w with
    | error e => exact issue_of_decode_error hd
    | ok i =>
      obtain ⟨r, hr, hsel⟩ := (decodeAcceptsExactlyTheTableRows.1 w).1 ⟨i, hd⟩
      exact absurd hsel (Bool.eq_false_iff.1 (hrows r hr))
  case port => rw [hostWrite_op, decodePort, if_neg hv]; rfl

/-- Settles O46: outside `IDLE` the busy check refuses, and the commands without it have no `ERR_BUSY` among their
codes. -/
theorem busyCheckIsUniform : Obligations.BusyCheckIsUniform := by
  refine ⟨fun i s hl ha => exec_of_active ha hl, fun i s t ha h hbusy => ?_⟩
  have hmem : Err.busy ∈ codes i := hbusy ▸ exec_err h
  rw [busy_mem_codes_iff.1 hmem] at ha
  cases ha

/-- Settles O47, from the ways in which a command can end: those with an error write `ERR` alone, but for those of
`PKT_PARSE`. -/
theorem errorsArePrecise : Obligations.ErrorsArePrecise := by
  intro i s t h he
  cases exec_next h with
  | busy => exact .inl rfl
  | idle hl heff =>
    obtain halone | ⟨hi, hflags⟩ := heff.precise he
    · exact .inl halone
    · exact .inr ⟨hi, hl, hflags⟩
  | link hstep =>
    obtain rfl | hok := hstep.refused_or_ok
    · exact .inl rfl
    · exact absurd hok he
  | nop | abortIdle | abort => exact absurd rfl he

/-- Settles O48, command by command from the checks of its pseudocode. -/
theorem eachCommandReportsItsCodes : Obligations.EachCommandReportsItsCodes := fun _ _ _ h => exec_err h

end Sys2Proof.Proofs
